-- ==== Sys2Proof/Word.lean ====
section
/-! DEFINITION. The word types of the block: the byte of every byte string (R11) and the 32-bit word of commands and
registers (R40, R80). -/

namespace Sys2Proof

/-- A byte: every byte string of the spec is a list of these (R11). -/
abbrev Byte := BitVec 8

/-- A 16-bit half word: the `arg` field, the CRC registers, the AU start offsets. -/
abbrev Half := BitVec 16

/-- A 32-bit word: a command word (R80) or the value of a register (R40). -/
abbrev Word := BitVec 32

end Sys2Proof
end

