-- ==== Sys2Proof/Machine/Bytes.lean ====
section
/-! DEFINITION. Byte order, bit fields and saturation (R10 to R12, R66). -/

namespace Sys2Proof

/-- The 16-bit number whose high byte is `hi` (`be16` of R11). -/
def be16 (hi lo : Byte) : Half := hi ++ lo

/-- The two bytes of a 16-bit number, most significant first (R66). -/
def be16Bytes (v : Half) : List Byte := [v.extractLsb' 8 8, v.extractLsb' 0 8]

/-- The four bytes of a 32-bit word, most significant first (R66, R80). -/
def be32Bytes (v : Word) : List Byte :=
  [v.extractLsb' 24 8, v.extractLsb' 16 8, v.extractLsb' 8 8, v.extractLsb' 0 8]

/-- A number written as two bytes: `be16(v)` of an integer that fits (R11, R12). -/
def be16Nat (n : Nat) : List Byte := be16Bytes (BitVec.ofNat 16 n)

/-- The field of bits `hi` down to `lo` of a byte, as a number (`v[hi:lo]` of R10). -/
def bitField (v : Byte) (hi lo : Nat) : Nat := (v.toNat / 2 ^ lo) % 2 ^ (hi + 1 - lo)

/-- Byte `i` of a byte string. Every rule reads inside the string (R61, R231); outside it the answer is 0. -/
def byteAt (b : List Byte) (i : Nat) : Byte := b.getD i 0

/-- One flag bit as a byte 0 or 1. -/
def flagByte (b : Bool) : Byte := if b then 1 else 0

/-- `sat32(c + n)`: a 32-bit counter that stops at its largest value (R12, R31, R288). -/
def satAdd32 (c : Word) (n : Nat) : Word := BitVec.ofNat 32 (min (c.toNat + n) (2 ^ 32 - 1))

/-- `sat8(c + n)` (R12, R27). -/
def satAdd8 (c : Byte) (n : Nat) : Byte := BitVec.ofNat 8 (min (c.toNat + n) 255)

/-- `sat16(n)` (R12, R98). -/
def sat16 (n : Nat) : Nat := min n 65535

/-- `f v`, written so that Lean's kernel evaluates `v` to a number before it goes on: a long loop over a register then
needs no deep recursion. It is `f v` for every `v` (`withValue_eq`). -/
def withValue {w : Nat} {α : Type} (v : BitVec w) (f : BitVec w → α) : α :=
  match v.toNat with
  | 0 => f (BitVec.ofNat w 0)
  | n + 1 => f (BitVec.ofNat w (n + 1))

end Sys2Proof
end

