-- ==== Sys2Proof/Syntax.lean ====
section
/-! DEFINITION. The commands: one constructor for each row of `spec/opcode_table.json`. A constructor carries every bit
of its command word that the row does not fix, the ignored ones too, so that decoding drops no bit. The `rsv` field is
an operand of the seven defined commands because R85 gives a word with a non-zero `rsv` an effect. -/

namespace Sys2Proof

/-- A command of the block (R80, R81). -/
inductive Instr where
  /-- NOP, opcode 0x00 (R120). -/
  | nop (rsv : Byte) (arg : Half)
  /-- CONFIG, opcode 0x01 (R121); `bitrate` is `arg`, in kbit/s. -/
  | config (rsv : Byte) (bitrate : Half)
  /-- CHANNEL_RESET, opcode 0x02 (R125). -/
  | channelReset (rsv : Byte) (arg : Half)
  /-- ADD_FRAME, opcode 0x03 (R150), with its payload; `arg` is the payload's length (R82). -/
  | addFrame (rsv : Byte) (payload : List Byte)
  /-- READ_REG, opcode 0x04 (R130); the index is `arg[7:0]`. -/
  | readReg (rsv : Byte) (arg : Half)
  /-- SNAPSHOT, opcode 0x05 (R132). -/
  | snapshot (rsv : Byte) (arg : Half)
  /-- READ_LABEL, opcode 0x06 (R134). -/
  | readLabel (rsv : Byte) (arg : Half)
  /-- The reserved opcode 0x07 (R84). -/
  | reserved07 (rsv : Byte) (arg : Half)
  /-- The reserved opcodes 0x08 to 0x0F (R84); `low` is `opcode[2:0]`. -/
  | reserved08 (low : BitVec 3) (rsv : Byte) (arg : Half)
  /-- The reserved opcodes 0x10 to 0x1F (R84); `low` is `opcode[3:0]`. -/
  | reserved10 (low : BitVec 4) (rsv : Byte) (arg : Half)
  /-- The reserved opcodes 0x20 to 0x3F (R84); `low` is `opcode[4:0]`. -/
  | reserved20 (low : BitVec 5) (rsv : Byte) (arg : Half)
  /-- The reserved opcodes 0x40 to 0x7F (R84); `low` is `opcode[5:0]`. -/
  | reserved40 (low : BitVec 6) (rsv : Byte) (arg : Half)
  /-- The reserved opcodes 0x80 to 0xFF (R84); `low` is `opcode[6:0]`. -/
  | reserved80 (low : BitVec 7) (rsv : Byte) (arg : Half)
  deriving DecidableEq, Repr

end Sys2Proof
end

