-- ==== Sys2Proof/WellFormed.lean ====
section
/-! DEFINITION. Which commands a command stream can carry. Every field of a constructor but the payload has the width of
its field in the word, so the payload's length is the one thing to check: it stands in the 16-bit `arg` (R82, R83). -/

namespace Sys2Proof

/-- A command that the encoding of R80 to R82 can carry. -/
def Instr.wellFormed : Instr → Bool
  | .nop _ _ => true
  | .config _ _ => true
  | .channelReset _ _ => true
  | .addFrame _ payload => decide (payload.length < 65536)
  | .readReg _ _ => true
  | .snapshot _ _ => true
  | .readLabel _ _ => true
  | .reserved07 _ _ => true
  | .reserved08 _ _ _ => true
  | .reserved10 _ _ _ => true
  | .reserved20 _ _ _ => true
  | .reserved40 _ _ _ => true
  | .reserved80 _ _ _ => true

end Sys2Proof
end

