-- ==== Sys2Proof/Decode.lean ====
section
/-! DEFINITION. The decoder of the command stream (R80 to R87), total on any bytes, and the encoder. Every 32-bit word
is a command: a reserved opcode and a non-zero `rsv` have effects of their own (R84, R85). So the decoder rejects only a
stream that ends too early, and says where. -/

namespace Sys2Proof

/-- Why the bytes at the head of the stream are no command yet (R340). -/
inductive DecodeError where
  /-- The stream is exhausted at a command boundary (R336). -/
  | endOfInput
  /-- The stream ends inside a command word. -/
  | incompleteWord
  /-- The stream ends inside an ADD_FRAME payload. -/
  | incompletePayload
  deriving DecidableEq, Repr

/-- The first `n` bytes of a string, put in reverse before `acc`, and what follows them; none if it is too short. -/
def splitBytes : Nat → List Byte → List Byte → Option (List Byte × List Byte)
  | 0, bytes, acc => some (acc.reverse, bytes)
  | _ + 1, [], _ => none
  | n + 1, b :: bytes, acc => splitBytes n bytes (b :: acc)

/-- The command of a word that has no payload, by the opcode map of R81. Opcode 0x03 is `decode`'s. -/
def decodeWord (op rsv : Byte) (arg : Half) : Instr :=
  if op = 0x00 then .nop rsv arg
  else if op = 0x01 then .config rsv arg
  else if op = 0x02 then .channelReset rsv arg
  else if op = 0x03 then .addFrame rsv []
  else if op = 0x04 then .readReg rsv arg
  else if op = 0x05 then .snapshot rsv arg
  else if op = 0x06 then .readLabel rsv arg
  else if op = 0x07 then .reserved07 rsv arg
  else if op < 0x10 then .reserved08 (op.setWidth 3) rsv arg
  else if op < 0x20 then .reserved10 (op.setWidth 4) rsv arg
  else if op < 0x40 then .reserved20 (op.setWidth 5) rsv arg
  else if op < 0x80 then .reserved40 (op.setWidth 6) rsv arg
  else .reserved80 (op.setWidth 7) rsv arg

/-- The command at the head of a byte string and the bytes after it (R80, R82). The `arg` payload bytes of an
opcode-0x03 word belong to the command whatever `rsv` is. -/
def decode : List Byte → Except DecodeError (Instr × List Byte)
  | [] => .error .endOfInput
  | op :: rsv :: a1 :: a0 :: rest =>
    if op = 0x03 then
      match splitBytes (be16 a1 a0).toNat rest [] with
      | some (payload, after) => .ok (.addFrame rsv payload, after)
      | none => .error .incompletePayload
    else .ok (decodeWord op rsv (be16 a1 a0), rest)
  | _ => .error .incompleteWord

/-- The opcode byte of a command (R81). -/
def Instr.opcode : Instr → Byte
  | .nop _ _ => 0x00
  | .config _ _ => 0x01
  | .channelReset _ _ => 0x02
  | .addFrame _ _ => 0x03
  | .readReg _ _ => 0x04
  | .snapshot _ _ => 0x05
  | .readLabel _ _ => 0x06
  | .reserved07 _ _ => 0x07
  | .reserved08 low _ _ => 0x08 ||| low.setWidth 8
  | .reserved10 low _ _ => 0x10 ||| low.setWidth 8
  | .reserved20 low _ _ => 0x20 ||| low.setWidth 8
  | .reserved40 low _ _ => 0x40 ||| low.setWidth 8
  | .reserved80 low _ _ => 0x80 ||| low.setWidth 8

/-- The bytes of a command word: opcode, `rsv`, and `arg` with its high byte first (R80). -/
def commandWord (op rsv : Byte) (arg : Half) : List Byte := op :: rsv :: be16Bytes arg

/-- The `rsv` byte of a command (R80). -/
def Instr.rsv : Instr → Byte
  | .nop rsv _ => rsv
  | .config rsv _ => rsv
  | .channelReset rsv _ => rsv
  | .addFrame rsv _ => rsv
  | .readReg rsv _ => rsv
  | .snapshot rsv _ => rsv
  | .readLabel rsv _ => rsv
  | .reserved07 rsv _ => rsv
  | .reserved08 _ rsv _ => rsv
  | .reserved10 _ rsv _ => rsv
  | .reserved20 _ rsv _ => rsv
  | .reserved40 _ rsv _ => rsv
  | .reserved80 _ rsv _ => rsv

/-- The `arg` field of a command (R80, R83). -/
def Instr.arg : Instr → Half
  | .nop _ arg => arg
  | .config _ bitrate => bitrate
  | .channelReset _ arg => arg
  | .addFrame _ payload => BitVec.ofNat 16 payload.length
  | .readReg _ arg => arg
  | .snapshot _ arg => arg
  | .readLabel _ arg => arg
  | .reserved07 _ arg => arg
  | .reserved08 _ _ arg => arg
  | .reserved10 _ _ arg => arg
  | .reserved20 _ _ arg => arg
  | .reserved40 _ _ arg => arg
  | .reserved80 _ _ arg => arg

/-- The payload bytes of a command: only ADD_FRAME has any (R82). -/
def Instr.payload : Instr → List Byte
  | .nop _ _ => []
  | .config _ _ => []
  | .channelReset _ _ => []
  | .addFrame _ payload => payload
  | .readReg _ _ => []
  | .snapshot _ _ => []
  | .readLabel _ _ => []
  | .reserved07 _ _ => []
  | .reserved08 _ _ _ => []
  | .reserved10 _ _ _ => []
  | .reserved20 _ _ _ => []
  | .reserved40 _ _ _ => []
  | .reserved80 _ _ _ => []

/-- The bytes of a command: its word, then its payload (R80 to R82, R88). -/
def encode (i : Instr) : List Byte := commandWord i.opcode i.rsv i.arg ++ i.payload

/-- The bytes of the command whose word is `w % 2 ^ nbits`, its payload, if it has one, all zeros. -/
def tableWordBytes (nbits w : Nat) : List Byte :=
  let word := BitVec.ofNat 32 (w % 2 ^ nbits)
  be32Bytes word ++
    (if word.extractLsb' 24 8 = 0x03 then List.replicate (word.extractLsb' 0 16).toNat 0 else [])

/-- The command that the decoder reads from a word numbered as the opcode table numbers it. -/
def decodeTableWord (nbits w : Nat) : Option Instr :=
  match decode (tableWordBytes nbits w) with
  | .ok (i, _) => some i
  | .error _ => none

end Sys2Proof
end

