-- ==== Sys2Proof/Config.lean ====
section
/-! DEFINITION. The implementation parameters (R8). They are fixed for the life of a model and are not state (R20), so
every operation that reads one takes the record as an argument. The values with one legal setting are constants. With
`Machine/Tables.lean` this is the configuration that R19 asks for. -/

namespace Sys2Proof

/-- The tunable parameters of R8. -/
structure Params where
  /-- `S_MAX`: the largest subchannel size `s`. -/
  sMax : Nat
  /-- `DESYNC_THRESHOLD`: how many firecode failures in a row declare desynchronisation. -/
  desyncThreshold : Nat
  /-- `SR_WINDOW`: how many superframes the success rate looks back. -/
  srWindow : Nat
  /-- `BOUNDARY_HUNT`: drop one frame instead of the window after a rejected header (R163). -/
  boundaryHunt : Bool
  /-- `FC_STAGE`: true is 1, CORRECTED; false is 0, RAW (R158). -/
  fcStage : Bool
  /-- `DL_CRC_CHECK`: drop a label data group whose CRC is wrong (R245). -/
  dlCrcCheck : Bool
  deriving DecidableEq, Repr

/-- The legal values of R8. -/
abbrev ParamsLegal (p : Params) : Prop :=
  (1 ≤ p.sMax ∧ p.sMax ≤ 37) ∧ (1 ≤ p.desyncThreshold ∧ p.desyncThreshold ≤ 255) ∧
    (1 ≤ p.srWindow ∧ p.srWindow ≤ 255)

/-- The values for this hardware, the column of that name in the table of R8. -/
def Config.hw : Params where
  sMax := 24
  desyncThreshold := 3
  srWindow := 25
  boundaryHunt := false
  fcStage := true
  dlCrcCheck := true

/-- `FRAMES_PER_SF` (R8): its only legal value is 5. -/
def Config.framesPerSf : Nat := 5

/-- `DL_MODULUS` (R8, R267): its only legal value is 8. Segment numbers are taken modulo it, and a label has one slot for
each. -/
abbrev Config.dlModulus : Nat := 8

/-- `AU_TABLE_CAPACITY` (R8, R29): its only legal value is 10, the entries of the AU Start Table. -/
abbrev Config.auTableCapacity : Nat := 10

end Sys2Proof
end

