-- ==== Sys2Proof/Machine/State.lean ====
section
/-! DEFINITION. The state of the block (R20 to R36), with the two streams of its host interface, as plain data; the
reasons a step can stop; and power-on reset (R50, R330). -/

namespace Sys2Proof.Machine

/-- `sync_state` (R26). The value 3 is never written, so the type leaves it out. -/
inductive SyncState where
  /-- NO_HEADER, value 0. -/
  | noHeader
  /-- LOCKED, value 1. -/
  | locked
  /-- DESYNC, value 2. -/
  | desync
  deriving DecidableEq, Repr

/-- `last_good`, the sticky header configuration (R28, R29). -/
structure LastGood where
  /-- `lg_valid`. -/
  valid : Bool
  /-- `lg_hdr`, the audio-parameter byte. -/
  hdr : Byte
  /-- `lg_num_aus`. -/
  numAus : BitVec 4
  /-- `lg_au_start[0..9]`, the AU Start Table. -/
  auStart : Vector Half Config.auTableCapacity
  deriving DecidableEq, Repr

/-- The telemetry counters (R31). -/
structure Counters where
  /-- `FRAME_ERR`. -/
  frameErr : Word
  /-- `AU_ERR`. -/
  auErr : Word
  /-- `RS_CORR`. -/
  rsCorr : Word
  /-- `RS_UNCORR`. -/
  rsUncorr : Word
  /-- `PAD_LEN_ERR`. -/
  padLenErr : Word
  /-- `DL_CRC_ERR`. -/
  dlCrcErr : Word
  /-- `SF_COUNT`. -/
  sfCount : Word
  /-- `AU_FWD`. -/
  auFwd : Word
  deriving DecidableEq, Repr

/-- One label slot: `slot_present[k]` and `slot_data[k]` (R35). -/
structure Slot where
  /-- `slot_present[k]`. -/
  present : Bool
  /-- `slot_data[k]`. -/
  data : List Byte
  deriving DecidableEq, Repr

/-- The Dynamic Label assembly in progress (R35). -/
structure LabelAsm where
  /-- `asm_active`. -/
  active : Bool
  /-- `asm_toggle`. -/
  toggle : Bool
  /-- `asm_charset`. -/
  charset : BitVec 4
  /-- `asm_last_valid`. -/
  lastValid : Bool
  /-- `asm_last`. -/
  last : BitVec 3
  /-- The slots of segments 0 to `DL_MODULUS - 1`. -/
  slots : Vector Slot Config.dlModulus
  deriving DecidableEq, Repr

/-- The completed-label register (R36). -/
structure LabelReg where
  /-- `label_valid`. -/
  valid : Bool
  /-- `label_charset`. -/
  charset : BitVec 4
  /-- `label`. -/
  text : List Byte
  deriving DecidableEq, Repr

/-- One event record: its tag and its body (R90). -/
structure Event where
  /-- The tag byte (R91). -/
  tag : Byte
  /-- The body bytes (R92 to R98). -/
  body : List Byte
  deriving DecidableEq, Repr

/-- The errors of R300, with what the raising rule records of each. ExternalDecoderFailure (code 6) is absent, as R309
asks of a model. -/
inductive BlockError where
  /-- Code 1 (R151): the payload length `L`. -/
  | framing (len : Nat)
  /-- Code 2 (R162). -/
  | headerIntegrity
  /-- Code 3 (R157): how many rows. -/
  | uncorrectableCodeword (rows : Nat)
  /-- Code 4 (R161). -/
  | auBoundary
  /-- Code 5 (R238): the X-PAD bytes needed and available. -/
  | padLength (needed avail : Nat)
  /-- Code 7 (R123): the requested bitrate. -/
  | config (bitrate : Half)
  /-- Code 8 (R308): the opcode and the CMD_ERROR code. -/
  | command (opcode code : Byte)
  deriving DecidableEq, Repr

/-- The state: the elements of R21 to R36, then the model's own view of the host interface. -/
structure State where
  /-- `cfg_bitrate`, in kbit/s; 0 means unconfigured (R21). -/
  cfgBitrate : Half
  /-- `fatal` (R22). -/
  fatal : Bool
  /-- `frames`, the superframe window, oldest first (R25). -/
  frames : List (List Byte)
  /-- `sync_state` (R26). -/
  syncState : SyncState
  /-- `fail_run` (R27). -/
  failRun : Byte
  /-- `last_good` (R28, R29). -/
  lastGood : LastGood
  /-- `nominal_aus` (R30). -/
  nominalAus : BitVec 3
  /-- The telemetry counters (R31). -/
  counters : Counters
  /-- `sr_hist`, pairs `(ok, tot)`, oldest first (R32). -/
  srHist : List (BitVec 3 × BitVec 3)
  /-- `SUCCESS_RATE` (R32). -/
  successRate : Byte
  /-- `xpad_prev_len` (R33). -/
  xpadPrevLen : BitVec 6
  /-- `xpad_prev_app` (R33). -/
  xpadPrevApp : BitVec 5
  /-- `short_prev_app` (R33). -/
  shortPrevApp : BitVec 5
  /-- `dg_active` (R34). -/
  dgActive : Bool
  /-- `dg_buf` (R34). -/
  dgBuf : List Byte
  /-- The label assembly (R35). -/
  asm : LabelAsm
  /-- The completed label (R36). -/
  label : LabelReg
  /-- The unread bytes of the command stream (R23, R80): host interface, not state of the block. -/
  input : List Byte
  /-- The event records emitted, oldest first (R90): host interface. -/
  output : List Event
  /-- How many records of `output` the consumer has accepted (R78): host interface. -/
  accepted : Nat
  /-- Whether the consumer accepts records as they come, at this moment (R78): the consumer's, never written by a command.
  R334's premise that it accepts every record eventually is `ConsumerReady` (Safety.lean). -/
  acceptsNow : Bool
  /-- The errors raised, oldest first (R14, R301): a record no command reads. -/
  raised : List BlockError
  deriving DecidableEq, Repr

/-- The faults. There are none: no rule stops the block (R71, R303, R310). -/
inductive Fault where
  deriving DecidableEq, Repr

/-- Why `step` has no next state. -/
inductive Refusal where
  /-- An instruction without a meaning. No arm of this model raises it. Safe: the run stops. -/
  | notModelled (mnemonic : String)
  /-- Raised by `step`: the command stream is exhausted at a command boundary, the end of a run (R336). Safe: the block
  has no enabled step there. -/
  | endOfInput
  /-- Raised by `step`: the command stream ends inside a command word or a payload, and the block holds (R340). Safe. -/
  | incompleteCommand
  /-- Raised by `step`: the consumer has not accepted a record, and the block holds (R78, R342). Safe. -/
  | awaitingConsumer
  deriving DecidableEq, Repr

/-- `lg_valid = 0` and every field 0 (R28). -/
def LastGood.cleared : LastGood where
  valid := false
  hdr := 0
  numAus := 0
  auStart := Vector.replicate Config.auTableCapacity 0

/-- Every counter 0 (R31). -/
def Counters.zero : Counters where
  frameErr := 0
  auErr := 0
  rsCorr := 0
  rsUncorr := 0
  padLenErr := 0
  dlCrcErr := 0
  sfCount := 0
  auFwd := 0

/-- A slot whose presence bit is 0 and whose data is `[]` (R35). -/
def Slot.empty : Slot where
  present := false
  data := []

/-- Every bit 0 and every slot empty (R35). -/
def LabelAsm.cleared : LabelAsm where
  active := false
  toggle := false
  charset := 0
  lastValid := false
  last := 0
  slots := Vector.replicate Config.dlModulus Slot.empty

/-- No completed label (R36). -/
def LabelReg.cleared : LabelReg where
  valid := false
  charset := 0
  text := []

/-- Power-on reset: every state element at the value R21 to R36 give, the command stream at a command boundary and the
event stream empty (R50, R330). -/
def State.reset : State where
  cfgBitrate := 0
  fatal := false
  frames := []
  syncState := .noHeader
  failRun := 0
  lastGood := LastGood.cleared
  nominalAus := 0
  counters := Counters.zero
  srHist := []
  successRate := 0
  xpadPrevLen := 0
  xpadPrevApp := 0
  shortPrevApp := 0
  dgActive := false
  dgBuf := []
  asm := LabelAsm.cleared
  label := LabelReg.cleared
  input := []
  output := []
  accepted := 0
  acceptsNow := true
  raised := []

end Sys2Proof.Machine
end

