-- ==== Sys2Proof/Machine/Events.lean ====
section
/-! DEFINITION. The event records (R90 to R98): their bytes on the event stream and the body of each kind. -/

namespace Sys2Proof.Machine

/-- The bytes of a record: the tag, the body length in two bytes, the body (R90). -/
def Event.bytes (e : Event) : List Byte := e.tag :: (be16Nat e.body.length ++ e.body)

/-- The event stream: the bytes of every record emitted, in order (R90). -/
def State.eventStream (s : State) : List Byte := s.output.flatMap Event.bytes

/-- AU, tag 0x01 (R92). -/
def auEvent (index : Nat) (valid : Bool) (hdr : Byte) (payload : List Byte) : Event :=
  ⟨0x01, [BitVec.ofNat 8 index, flagByte valid, hdr] ++ payload⟩

/-- LABEL, tag 0x02 (R93). -/
def labelEvent (charset : BitVec 4) (text : List Byte) : Event :=
  ⟨0x02, [charset.setWidth 8, BitVec.ofNat 8 text.length] ++ text⟩

/-- SUCCESS_RATE, tag 0x03 (R94). -/
def successRateEvent (rate : Byte) : Event := ⟨0x03, [rate]⟩

/-- COUNTERS, tag 0x04 (R94). -/
def countersEvent (c : Counters) : Event :=
  ⟨0x04, be32Bytes c.frameErr ++ be32Bytes c.auErr ++ be32Bytes c.rsCorr ++ be32Bytes c.rsUncorr ++
    be32Bytes c.padLenErr⟩

/-- PAD_LENGTH_ERROR, tag 0x05 (R95). -/
def padLengthErrorEvent (needed avail : Nat) : Event := ⟨0x05, be16Nat needed ++ be16Nat avail⟩

/-- SHORT_XPAD, tag 0x06 (R95). -/
def shortXpadEvent (app : BitVec 5) (ci : Bool) (data : List Byte) : Event :=
  ⟨0x06, [app.setWidth 8, flagByte ci] ++ data⟩

/-- XPAD_SUBFIELD, tag 0x07 (R95). -/
def xpadSubfieldEvent (app : BitVec 5) (data : List Byte) : Event := ⟨0x07, [app.setWidth 8] ++ data⟩

/-- REG_VALUE, tag 0x08 (R96). -/
def regValueEvent (idx : Byte) (value : Word) : Event := ⟨0x08, [idx] ++ be32Bytes value⟩

/-- SNAPSHOT, tag 0x09, of the register values in order (R96). -/
def snapshotEvent (values : List Word) : Event := ⟨0x09, values.flatMap be32Bytes⟩

/-- CMD_ERROR, tag 0x0A (R97). -/
def cmdErrorEvent (opcode code : Byte) : Event := ⟨0x0A, [opcode, code]⟩

/-- CONFIG_ERROR, tag 0x0B (R97). -/
def configErrorEvent (bitrate : Half) : Event := ⟨0x0B, be16Bytes bitrate⟩

/-- FRAMING_ERROR, tag 0x0C (R97). -/
def framingErrorEvent (len expected : Nat) : Event := ⟨0x0C, be16Nat len ++ be16Nat expected⟩

/-- SUPERFRAME_STATUS, tag 0x0D (R98). -/
def superframeStatusEvent (outcome : Byte) (corr nunc nfwd ninv : Nat) (sync failRun : Byte) : Event :=
  ⟨0x0D, [outcome] ++ be16Nat (sat16 corr) ++
    [BitVec.ofNat 8 nunc, BitVec.ofNat 8 nfwd, BitVec.ofNat 8 ninv, sync, failRun]⟩

/-- LABEL_READ, tag 0x0E (R93). -/
def labelReadEvent (l : LabelReg) : Event :=
  ⟨0x0E, [flagByte l.valid, l.charset.setWidth 8, BitVec.ofNat 8 l.text.length] ++ l.text⟩

end Sys2Proof.Machine
end

