-- ==== Sys2Proof/Machine/Tables.lean ====
section
/-! DEFINITION. The constants and field positions of the DAB+ formats, which the spec marks as general knowledge and R19
asks a model to keep in one place. Each is the value the spec writes. With the parameters of `Config.lean` they are the
configuration. The operations take every such value, every byte or bit position in a broadcast format, and every order of
its bytes, bits and coefficients from here. -/

namespace Sys2Proof.Tables

/-- The number that two bytes of a broadcast format spell: the first is the most significant (R64). -/
abbrev formatWord (first second : Byte) : Half := be16 first second

/-- Bit `i` of a byte of a broadcast format, counted from the first: the first is the most significant (R64, R101). -/
abbrev formatBit (b : Byte) (i : Nat) : Bool := b.getMsbD i

/-- The number that the bits of a field spell: the first is the most significant (R64, R101). -/
def formatNumber (bits : List Bool) : Nat := bits.foldl (fun n bit => 2 * n + bit.toNat) 0

/-- The bits of a byte in the order in which the firecode and the CRC-16 process them: the most significant first (R181,
R103). -/
def checkBits (b : Byte) : List Bool := (List.range 8).map (formatBit b)

/-- The bitrate of one unit of the subchannel size, in kbit/s: `s = cfg_bitrate / 8` (R9). -/
def bitrateUnit : Nat := 8

/-- Bytes of a frame for each unit of the subchannel size: `frame_len = 24 × s` (R9). -/
def frameBytes : Nat := 24

/-- Data columns of the RS matrix (R191, R192). -/
def rsDataLen : Nat := 110

/-- Columns of the RS matrix: the length of a codeword (R191, R192). -/
def rsCodeLen : Nat := 120

/-- The window position of byte `k` of row `j`, for subchannel size `s` (R192). -/
abbrev interleave (s j k : Nat) : Nat := j + k * s

/-- The row that holds the superframe byte `p`, for subchannel size `s` (R192, R200). -/
abbrev interleaveRow (s p : Nat) : Nat := p % s

/-- The column that holds the superframe byte `p`, for subchannel size `s` (R192). -/
abbrev interleaveColumn (s p : Nat) : Nat := p / s

/-- The number of parity bytes and of syndromes (R191, R195). -/
def rsParityLen : Nat := 10

/-- The designed correction capacity `t` (R191). -/
def rsCapacity : Nat := 5

/-- The field polynomial of GF(256), `x^8 + x^4 + x^3 + x^2 + 1` (R190). -/
def fieldPoly : BitVec 9 := 0x11D

/-- The primitive element `α` (R190). -/
def alpha : Byte := 0x02

/-- The exponent of the first root of the generator polynomial, `α^0` (R191). -/
def rsFirstRoot : Nat := 0

/-- The spacing of the roots (R191). -/
def rsRootSpacing : Nat := 1

/-- The exponent of root `i` of the generator polynomial (R191). -/
abbrev rsRootExponent (i : Nat) : Nat := rsFirstRoot + rsRootSpacing * i

/-- The exponent of `x` that byte `k` of a codeword is the coefficient of: the first byte has the highest (R193). Any other
one-to-one order of the exponents can stand here. -/
abbrev rsDegree (k : Nat) : Nat := rsCodeLen - 1 - k

/-- The firecode's generator polynomial without its `x^16` term (R181). -/
def firecodePoly : Half := 0x782F

/-- The firecode's preset (R181). -/
def firecodePreset : Half := 0x0000

/-- The value the final firecode register is combined with: there is no inversion (R181). -/
def firecodeFinal : Half := 0x0000

/-- The bytes of a superframe header (R100, R180). -/
def headerLen : Nat := 11

/-- The header of a superframe: its first bytes (R100). -/
abbrev header (data : List Byte) : List Byte := data.take headerLen

/-- The firecode word of a header, in its bytes 0 and 1 (R180). -/
abbrev firecodeWord (header : List Byte) : Half := formatWord (byteAt header 0) (byteAt header 1)

/-- The first byte of a header that the firecode covers (R180). -/
def firecodeCoverStart : Nat := 2

/-- How many bytes of a header the firecode covers (R180). -/
def firecodeCoverLen : Nat := 9

/-- The bytes of a header that the firecode covers (R180). -/
abbrev firecodeCovered (header : List Byte) : List Byte := (header.drop firecodeCoverStart).take firecodeCoverLen

/-- The CRC-16 polynomial without its `x^16` term (R214). -/
def crcPoly : Half := 0x1021

/-- The CRC-16 preset (R214). -/
def crcPreset : Half := 0xFFFF

/-- The value the final CRC-16 register is combined with (R214). -/
def crcFinal : Half := 0xFFFF

/-- The bytes of a CRC-16 at the end of an access unit or a data group (R103, R110). -/
def crcLen : Nat := 2

/-- The bytes before the CRC word at the end of a byte string (R103, R113). -/
abbrev crcCovered (bytes : List Byte) : List Byte := bytes.take (bytes.length - crcLen)

/-- The CRC word at the end of a byte string (R103, R113). -/
abbrev crcWord (bytes : List Byte) : Half :=
  formatWord (byteAt bytes (bytes.length - crcLen)) (byteAt bytes (bytes.length - crcLen + 1))

/-- The audio-parameter byte of a superframe (R100). -/
abbrev audioParams (data : List Byte) : Byte := byteAt data 2

/-- `dac_rate` of the audio-parameter byte (R100). -/
abbrev dacRate (hdr : Byte) : Bool := hdr.getLsbD 6

/-- `sbr_flag` of the audio-parameter byte (R100). -/
abbrev sbrFlag (hdr : Byte) : Bool := hdr.getLsbD 5

/-- The bit offset of the first AU start field (R101). -/
def auFieldsStart : Nat := 24

/-- The bits of an AU start field (R101). -/
def auFieldBits : Nat := 12

/-- The bit offset of the field `au_start[i]`, `1 ≤ i` (R101). -/
abbrev auFieldOffset (i : Nat) : Nat := auFieldsStart + auFieldBits * (i - 1)

/-- The number of AUs and the first AU offset for `(dac_rate, sbr_flag)` (R102). -/
def auTable (dacRate sbrFlag : Bool) : Nat × Nat :=
  match dacRate, sbrFlag with
  | false, false => (4, 8)
  | false, true => (2, 5)
  | true, false => (6, 11)
  | true, true => (3, 6)

/-- The F-PAD bytes at the end of a frame (R105). -/
def fpadLen : Nat := 2

/-- F-PAD byte L-1, `FB1` (R105, R106). -/
abbrev fpadByte1 (frame : List Byte) : Byte := byteAt frame (frame.length - fpadLen)

/-- F-PAD byte L, `FB2` (R105, R106). -/
abbrev fpadByte2 (frame : List Byte) : Byte := byteAt frame (frame.length - fpadLen + 1)

/-- The X-PAD bytes of a frame: the frame without its F-PAD bytes, read backwards (R105, R231). -/
abbrev xpad (frame : List Byte) : List Byte := (frame.take (frame.length - fpadLen)).reverse

/-- The F-PAD type of `FB1` (R106). -/
abbrev fpadType (fb1 : Byte) : Nat := bitField fb1 7 6

/-- The F-PAD type whose X-PAD the block interprets (R232). -/
def fpadTypeXpad : Nat := 0

/-- The X-PAD indicator of `FB1` (R106). -/
abbrev xpadIndicator (fb1 : Byte) : Nat := bitField fb1 5 4

/-- The X-PAD indicator of a short X-PAD (R106). -/
def xpadShort : Nat := 1

/-- The X-PAD indicator of a variable-size X-PAD (R106). -/
def xpadVariable : Nat := 2

/-- The CI flag of `FB2` (R106). -/
abbrev ciFlag (fb2 : Byte) : Bool := fb2.getLsbD 1

/-- The bytes of a short X-PAD (R107). -/
def shortXpadLen : Nat := 4

/-- The bytes of the contents indicator of a short X-PAD that has one (R107). -/
def shortXpadCiLen : Nat := 1

/-- The contents indicator of a short X-PAD (R107). -/
abbrev shortXpadCi (xpad : List Byte) : Byte := byteAt xpad 0

/-- The data bytes of a short X-PAD, behind its contents indicator if it has one (R107). -/
abbrev shortXpadData (ci : Bool) (xpad : List Byte) : List Byte :=
  (xpad.take shortXpadLen).drop (if ci then shortXpadCiLen else 0)

/-- The most contents indicators that a list has (R108). -/
def ciMax : Nat := 4

/-- The length indicator of a contents indicator (R108). -/
abbrev ciLengthIndicator (ci : Byte) : Nat := bitField ci 7 5

/-- The application type of a contents indicator (R107, R108). -/
abbrev ciApp (ci : Byte) : BitVec 5 := ci.extractLsb' 0 5

/-- The sub-field length of a contents indicator's length indicator (R108). -/
def subfieldLen (lengthIndicator : Nat) : Nat := [4, 6, 8, 12, 16, 24, 32, 48].getD lengthIndicator 0

/-- The application type of an end marker (R108, R109). -/
def appEndMarker : BitVec 5 := 0

/-- Dynamic Label segment, start of data group (R109). -/
def appLabelStart : BitVec 5 := 2

/-- Dynamic Label segment, continuation of data group (R109). -/
def appLabelCont : BitVec 5 := 3

/-- MOT and MOT CA messages, start and continuation of data group (R109). -/
def appMotStart : BitVec 5 := 12
@[inherit_doc appMotStart] def appMotCont : BitVec 5 := 13
@[inherit_doc appMotStart] def appMotCaStart : BitVec 5 := 14
@[inherit_doc appMotStart] def appMotCaCont : BitVec 5 := 15

/-- The application type that continues a type: 2, 12 and 14 become 3, 13 and 15 (R240). -/
def contApp (app : BitVec 5) : BitVec 5 :=
  if app = appLabelStart then appLabelCont
  else if app = appMotStart then appMotCont
  else if app = appMotCaStart then appMotCaCont
  else app

/-- The prefix bytes of a label data group (R110). -/
def dgPrefixLen : Nat := 2

/-- Prefix byte 0 of a label data group (R110). -/
abbrev dgPrefix0 (g : List Byte) : Byte := byteAt g 0

/-- Prefix byte 1 of a label data group (R110). -/
abbrev dgPrefix1 (g : List Byte) : Byte := byteAt g 1

/-- The field of a label data group, between prefix and CRC (R110). -/
abbrev dgField (g : List Byte) : List Byte := (crcCovered g).drop dgPrefixLen

/-- The toggle bit of prefix byte 0 (R110). -/
abbrev dgToggle (p0 : Byte) : Bool := p0.getLsbD 7

/-- The first-segment flag of prefix byte 0 (R110). -/
abbrev dgFirst (p0 : Byte) : Bool := p0.getLsbD 6

/-- The last-segment flag of prefix byte 0 (R110). -/
abbrev dgLast (p0 : Byte) : Bool := p0.getLsbD 5

/-- The C flag of prefix byte 0: the group is a command (R110). -/
abbrev dgCommand (p0 : Byte) : Bool := p0.getLsbD 4

/-- The characters of a label segment: field 1 of prefix byte 0 holds their number minus 1 (R110). -/
abbrev dgCharacters (p0 : Byte) : Nat := bitField p0 3 0 + 1

/-- The command code of a command group: field 1 of prefix byte 0 (R110). -/
abbrev dgCommandCode (p0 : Byte) : Nat := bitField p0 3 0

/-- The command code of a DL Plus command (R112). -/
def dlPlusCommand : Nat := 2

/-- The field bytes of a DL Plus command (R112). -/
abbrev dlPlusLen (p1 : Byte) : Nat := bitField p1 3 0 + 1

/-- The field bytes of every other command (R112). -/
def otherCommandLen : Nat := 0

/-- The bytes `m` of a data group's field, by its prefix (R110, R112). -/
def dgFieldLen (p0 p1 : Byte) : Nat :=
  if !dgCommand p0 then dgCharacters p0
  else if dgCommandCode p0 = dlPlusCommand then dlPlusLen p1
  else otherCommandLen

/-- The number of the first segment of a label (R111). -/
abbrev firstSegment : BitVec 3 := 0

/-- The segment number: prefix byte 1 carries it unless the segment is the first (R111). -/
abbrev dgSegment (p0 p1 : Byte) : BitVec 3 := if dgFirst p0 then firstSegment else p1.extractLsb' 4 3

/-- The character set in prefix byte 1 of a first segment; 0 for the others, which carry none (R111, R246). -/
abbrev dgCharset (p0 p1 : Byte) : BitVec 4 := if dgFirst p0 then p1.extractLsb' 4 4 else 0

/-- A segment that is not the first and has the first one's number (R111, R246). -/
abbrev dgMalformed (p0 p1 : Byte) : Bool := !dgFirst p0 && dgSegment p0 p1 == firstSegment

/-- The constant of register ID, the ASCII bytes "DABP" (R41). -/
def idValue : Word := 0x44414250

end Sys2Proof.Tables
end

