-- ==== Sys2Proof/Machine/Ops.lean ====
section
/-! DEFINITION. The operations that the commands share: the derived sizes (R9), the reads of the superframe window
(R61), the pseudocode primitives Emit and raise (R14), the counter updates (R280 to R283), session reset (R126), and the
moves of the host and the consumer (R78, R330, R335).

The block takes no exception (R303): what stands in its place is `raise`, which records an error and goes on (R301). -/

namespace Sys2Proof.Machine

/-- `configured = (cfg_bitrate ≠ 0)` (R21). -/
def State.configured (s : State) : Bool := s.cfgBitrate != 0

/-- The subchannel size `s = cfg_bitrate / 8` (R9). -/
def State.subchannel (s : State) : Nat := s.cfgBitrate.toNat / Tables.bitrateUnit

/-- `frame_len = 24 × s` (R9). -/
def State.frameLen (s : State) : Nat := Tables.frameBytes * s.subchannel

/-- The superframe buffer `W`: the frames of the window, one after the other (R25). -/
def State.window (s : State) : List Byte := s.frames.flatten

/-- `BufRead(i)`: byte `i mod frame_len` of frame `i div frame_len`; none where the window has no byte `i` (R61). -/
def State.bufRead (s : State) (i : Nat) : Option Byte :=
  (s.frames[i / s.frameLen]?).bind (fun f => f[i % s.frameLen]?)

/-- The number that `sync_state` reads as (R26). -/
def SyncState.code : SyncState → Byte
  | .noHeader => 0
  | .locked => 1
  | .desync => 2

/-- The numeric code of an error (R300). -/
def BlockError.code : BlockError → Nat
  | .framing _ => 1
  | .headerIntegrity => 2
  | .uncorrectableCodeword _ => 3
  | .auBoundary => 4
  | .padLength _ _ => 5
  | .config _ => 7
  | .command _ _ => 8

/-- `Emit`: append one record to the event stream (R14, R90). -/
def emit (e : Event) (s : State) : State := { s with output := s.output ++ [e] }

/-- Append several records, in order. -/
def emitAll (es : List Event) (s : State) : State := { s with output := s.output ++ es }

/-- `raise`: record that an error occurred, and nothing else (R14, R301). -/
def raise (e : BlockError) (s : State) : State := { s with raised := s.raised ++ [e] }

/-- `FRAME_ERR <- sat32(FRAME_ERR + 1)` (R280). -/
def countFrameErr (s : State) : State :=
  { s with counters := { s.counters with frameErr := satAdd32 s.counters.frameErr 1 } }

/-- `AU_ERR` grows by the invalid AUs and `AU_FWD` by all AUs forwarded (R281). -/
def countAus (ninv nfwd : Nat) (s : State) : State :=
  { s with counters := { s.counters with
      auErr := satAdd32 s.counters.auErr ninv
      auFwd := satAdd32 s.counters.auFwd nfwd } }

/-- `RS_CORR` grows by the corrected bytes and `RS_UNCORR` by the uncorrectable rows (R282). -/
def countRs (corr nunc : Nat) (s : State) : State :=
  { s with counters := { s.counters with
      rsCorr := satAdd32 s.counters.rsCorr corr
      rsUncorr := satAdd32 s.counters.rsUncorr nunc } }

/-- `PAD_LEN_ERR <- sat32(PAD_LEN_ERR + 1)` (R283). -/
def countPadLenErr (s : State) : State :=
  { s with counters := { s.counters with padLenErr := satAdd32 s.counters.padLenErr 1 } }

/-- `DL_CRC_ERR <- sat32(DL_CRC_ERR + 1)` (R283). -/
def countDlCrcErr (s : State) : State :=
  { s with counters := { s.counters with dlCrcErr := satAdd32 s.counters.dlCrcErr 1 } }

/-- `SF_COUNT <- sat32(SF_COUNT + 1)` (R283). -/
def countSuperframe (s : State) : State :=
  { s with counters := { s.counters with sfCount := satAdd32 s.counters.sfCount 1 } }

/-- Write the superframe window (R153, R156, R163). -/
def setFrames (frames : List (List Byte)) (s : State) : State := { s with frames := frames }

/-- SessionReset: every session element at its reset value, with no event; `cfg_bitrate` and `fatal` stay (R126, R127). -/
def sessionReset (s : State) : State :=
  { s with
    frames := []
    syncState := .noHeader
    failRun := 0
    lastGood := LastGood.cleared
    nominalAus := 0
    counters := Counters.zero
    srHist := []
    successRate := 0
    xpadPrevLen := 0
    xpadPrevApp := 0
    shortPrevApp := 0
    dgActive := false
    dgBuf := []
    asm := LabelAsm.cleared
    label := LabelReg.cleared }

/-- Write `cfg_bitrate` and `fatal` (R121). -/
def setConfig (bitrate : Half) (fatal : Bool) (s : State) : State :=
  { s with cfgBitrate := bitrate, fatal := fatal }

/-- CommandError: record it and emit CMD_ERROR; no state changes (R308). -/
def commandError (opcode code : Byte) (s : State) : State :=
  emit (cmdErrorEvent opcode code) (raise (.command opcode code) s)

/-- The host appends bytes to the command stream (R335). A move of the host, not a step of the block. -/
def State.hostSend (bytes : List Byte) (s : State) : State := { s with input := s.input ++ bytes }

/-- The consumer accepts up to `n` more records (R78). A move of the consumer. -/
def State.consumerAccept (n : Nat) (s : State) : State :=
  { s with accepted := min (s.accepted + n) s.output.length }

/-- The consumer starts or stops accepting records as they come (R78). A move of the consumer. -/
def State.setAcceptsNow (ready : Bool) (s : State) : State := { s with acceptsNow := ready }

/-- Power-on reset in any state: unconfigured, not fatal, session reset, the command stream at a command boundary and
the event stream empty (R330). The consumer's readiness is not the block's to change. -/
def State.powerOn (s : State) : State := { State.reset with acceptsNow := s.acceptsNow }

end Sys2Proof.Machine
end

