-- ==== Sys2Proof/Machine/Operands.lean ====
section
/-! DEFINITION. Operand assembly (R83) and the check of the `rsv` field (R85), which every defined command makes before
any other effect (R128, R304). -/

namespace Sys2Proof.Machine

/-- READ_REG's index, `arg[7:0]`; `arg[15:8]` is ignored (R83). -/
def regIndex (arg : Half) : Byte := arg.extractLsb' 0 8

/-- A defined command with its `rsv` field: when `rsv` is not 0 the command has no effect but CMD_ERROR code 2 (R85). -/
def checkRsv (opcode rsv : Byte) (command : State → State) (s : State) : State :=
  if rsv = 0 then command s else commandError opcode 2 s

end Sys2Proof.Machine
end

