-- ==== Sys2Proof/Machine/Flags.lean ====
section
/-! DEFINITION. The status flags (R37) and the register STATUS that shows them (R43). The block has no condition codes. -/

namespace Sys2Proof.Machine

/-- A number in the bits `hi` down to `lo` of a 32-bit register, zeros elsewhere (R40). -/
def field (value hi lo : Nat) : Word := BitVec.ofNat 32 (value % 2 ^ (hi + 1 - lo) * 2 ^ lo)

/-- One flag in bit `pos` of a 32-bit register. -/
def flagBit (b : Bool) (pos : Nat) : Word := field (if b then 1 else 0) pos pos

/-- Register STATUS (R43). -/
def statusReg (s : State) : Word :=
  flagBit s.configured 0 ||| flagBit s.fatal 1 ||| field s.frames.length 4 2 ||| field s.syncState.code.toNat 6 5 |||
    field s.failRun.toNat 15 8 ||| flagBit s.lastGood.valid 16 ||| flagBit s.label.valid 17 ||| flagBit s.asm.active 18 |||
    flagBit s.dgActive 19

end Sys2Proof.Machine
end

