-- ==== Sys2Proof/Machine/Registers.lean ====
section
/-! DEFINITION. The register map (R40 to R48): read-only views of the state, and two constants. -/

namespace Sys2Proof.Machine

/-- Register CONFIG (R42). -/
def configReg (s : State) : Word := field s.cfgBitrate.toNat 15 0 ||| field s.subchannel 23 16

/-- Register LAST_GOOD (R46). -/
def lastGoodReg (s : State) : Word :=
  field s.lastGood.hdr.toNat 7 0 ||| field s.lastGood.numAus.toNat 11 8 ||| flagBit s.lastGood.valid 31

/-- Register LABEL_INFO (R47). -/
def labelInfoReg (s : State) : Word :=
  field s.label.text.length 7 0 ||| field s.label.charset.toNat 11 8 ||| flagBit s.label.valid 31

/-- Register PARAMS (R44). -/
def paramsReg (p : Params) : Word :=
  field p.sMax 7 0 ||| field p.desyncThreshold 15 8 ||| field p.srWindow 23 16 ||| flagBit p.boundaryHunt 24 |||
    flagBit p.fcStage 25 ||| flagBit p.dlCrcCheck 26

/-- The register of an index (R40); none for the unassigned indices 0x19 to 0xFF (R48). -/
def readRegister (p : Params) (s : State) (idx : Byte) : Option Word :=
  match idx.toNat with
  | 0x00 => some Tables.idValue
  | 0x01 => some (configReg s)
  | 0x02 => some (statusReg s)
  | 0x03 => some s.counters.frameErr
  | 0x04 => some s.counters.auErr
  | 0x05 => some s.counters.rsCorr
  | 0x06 => some s.counters.rsUncorr
  | 0x07 => some s.counters.padLenErr
  | 0x08 => some s.counters.dlCrcErr
  | 0x09 => some s.counters.sfCount
  | 0x0A => some s.counters.auFwd
  | 0x0B => some (s.successRate.setWidth 32)
  | 0x0C => some (lastGoodReg s)
  | 0x17 => some (labelInfoReg s)
  | 0x18 => some (paramsReg p)
  | n => (s.lastGood.auStart[n - 0x0D]?).map (·.setWidth 32)

/-- The ten registers of a SNAPSHOT, 0x02 to 0x0B, all of one state (R132, R133). -/
def snapshotRegs (s : State) : List Word :=
  [statusReg s, s.counters.frameErr, s.counters.auErr, s.counters.rsCorr, s.counters.rsUncorr, s.counters.padLenErr,
    s.counters.dlCrcErr, s.counters.sfCount, s.counters.auFwd, s.successRate.setWidth 32]

end Sys2Proof.Machine
end

