-- ==== Sys2Proof/Machine/Control.lean ====
section
/-! DEFINITION. The control commands (R120 to R135): NOP, CONFIG, CHANNEL_RESET, READ_REG, SNAPSHOT, READ_LABEL. -/

namespace Sys2Proof.Machine

/-- `Legal(b)` (R122). -/
def legalBitrate (p : Params) (b : Half) : Bool :=
  decide (b.toNat % Tables.bitrateUnit = 0) && decide (Tables.bitrateUnit ≤ b.toNat) &&
    decide (b.toNat ≤ Tables.bitrateUnit * p.sMax)

/-- An illegal CONFIG: ConfigError, the session discarded, unconfigured and fatal (R121, R123). -/
def configIllegal (b : Half) (s : State) : State :=
  setConfig 0 true (sessionReset (emit (configErrorEvent b) (raise (.config b) s)))

/-- CONFIG, past the check of `rsv` (R121, R124). -/
def config (p : Params) (b : Half) (s : State) : State :=
  if !legalBitrate p b then configIllegal b s
  else if b = s.cfgBitrate then s
  else setConfig b false (sessionReset s)

/-- READ_REG, past the check of `rsv` (R130, R131). -/
def readReg (p : Params) (idx : Byte) (s : State) : State :=
  match readRegister p s idx with
  | some value => emit (regValueEvent idx value) s
  | none => commandError 0x04 3 s

/-- SNAPSHOT, past the check of `rsv` (R132). -/
def snapshot (s : State) : State := emit (snapshotEvent (snapshotRegs s)) s

/-- READ_LABEL, past the check of `rsv` (R134). -/
def readLabel (s : State) : State := emit (labelReadEvent s.label) s

/-- NOP (R120): no state change, no event, whatever `arg` is. -/
def execNop (rsv : Byte) (_arg : Half) (s : State) : Host.Outcome State Fault Refusal :=
  .next (checkRsv 0x00 rsv id s)

/-- CONFIG (R121), with this hardware's parameters. -/
def execConfig (rsv : Byte) (bitrate : Half) (s : State) : Host.Outcome State Fault Refusal :=
  .next (checkRsv 0x01 rsv (config Config.hw bitrate) s)

/-- CHANNEL_RESET (R125). -/
def execChannelReset (rsv : Byte) (_arg : Half) (s : State) : Host.Outcome State Fault Refusal :=
  .next (checkRsv 0x02 rsv sessionReset s)

/-- READ_REG (R130), with this hardware's parameters. -/
def execReadReg (rsv : Byte) (arg : Half) (s : State) : Host.Outcome State Fault Refusal :=
  .next (checkRsv 0x04 rsv (readReg Config.hw (regIndex arg)) s)

/-- SNAPSHOT (R132). -/
def execSnapshot (rsv : Byte) (_arg : Half) (s : State) : Host.Outcome State Fault Refusal :=
  .next (checkRsv 0x05 rsv snapshot s)

/-- READ_LABEL (R134). -/
def execReadLabel (rsv : Byte) (_arg : Half) (s : State) : Host.Outcome State Fault Refusal :=
  .next (checkRsv 0x06 rsv readLabel s)

end Sys2Proof.Machine
end

