-- ==== Sys2Proof/Machine/Reserved.lean ====
section
/-! DEFINITION. The reserved opcodes 0x07 to 0xFF (R84): each consumes its word, changes no state, and emits CMD_ERROR
with its opcode and code 1. `rsv` and `arg` are not examined. -/

namespace Sys2Proof.Machine

/-- A reserved opcode (R84). -/
def reservedOpcode (opcode : Byte) (s : State) : State := commandError opcode 1 s

/-- The reserved opcode 0x07 (R84). -/
def execReserved07 (_rsv : Byte) (_arg : Half) (s : State) : Host.Outcome State Fault Refusal :=
  .next (reservedOpcode 0x07 s)

/-- The reserved opcodes 0x08 to 0x0F (R84). -/
def execReserved08 (low : BitVec 3) (_rsv : Byte) (_arg : Half) (s : State) : Host.Outcome State Fault Refusal :=
  .next (reservedOpcode (0x08 ||| low.setWidth 8) s)

/-- The reserved opcodes 0x10 to 0x1F (R84). -/
def execReserved10 (low : BitVec 4) (_rsv : Byte) (_arg : Half) (s : State) : Host.Outcome State Fault Refusal :=
  .next (reservedOpcode (0x10 ||| low.setWidth 8) s)

/-- The reserved opcodes 0x20 to 0x3F (R84). -/
def execReserved20 (low : BitVec 5) (_rsv : Byte) (_arg : Half) (s : State) : Host.Outcome State Fault Refusal :=
  .next (reservedOpcode (0x20 ||| low.setWidth 8) s)

/-- The reserved opcodes 0x40 to 0x7F (R84). -/
def execReserved40 (low : BitVec 6) (_rsv : Byte) (_arg : Half) (s : State) : Host.Outcome State Fault Refusal :=
  .next (reservedOpcode (0x40 ||| low.setWidth 8) s)

/-- The reserved opcodes 0x80 to 0xFF (R84). -/
def execReserved80 (low : BitVec 7) (_rsv : Byte) (_arg : Half) (s : State) : Host.Outcome State Fault Refusal :=
  .next (reservedOpcode (0x80 ||| low.setWidth 8) s)

end Sys2Proof.Machine
end

