-- ==== Sys2Proof/Machine/Crc.lean ====
section
/-! DEFINITION. The two 16-bit checks: the firecode (R180 to R185) and the CRC-16 of access units and label data groups
(R214, R113). Both are the remainder of a division by a polynomial; they differ in polynomial, preset and final value. Bit
`i` of the register is the coefficient of `x^i`, as in the polynomials of `Tables`; the order of a byte's bits is
`Tables.checkBits`, and the order of the two bytes of a check word is `Tables.formatWord`. -/

namespace Sys2Proof.Machine

/-- The register multiplied by `x`, modulo the polynomial: shift left, and combine with the polynomial when the coefficient
shifted out is 1 (R181, R214). -/
def crcShift (poly r : Half) : Half := if r.msb then (r <<< 1) ^^^ poly else r <<< 1

/-- One bit of the string: combine it with the coefficient of `x^15`, then multiply by `x`. -/
def crcBit (poly r : Half) (bit : Bool) : Half := crcShift poly (if bit then r ^^^ BitVec.intMin 16 else r)

/-- One byte: its bits in their order. `crcByte_eq` gives it as the loop of R181 and R214. -/
def crcByte (poly r : Half) (b : Byte) : Half := (Tables.checkBits b).foldl (crcBit poly) r

/-- The register after a byte string, from the value `r`. -/
def crcRegister (poly : Half) : Half → List Byte → Half
  | r, [] => r
  | r, b :: bytes => withValue (crcByte poly r b) fun r' => crcRegister poly r' bytes

/-- The check value of a byte string: the register's last value, combined with a final one. -/
def checkValue (poly preset final : Half) (bytes : List Byte) : Half := crcRegister poly preset bytes ^^^ final

/-- `FC`: the firecode of a byte string (R181). -/
def firecode (bytes : List Byte) : Half := checkValue Tables.firecodePoly Tables.firecodePreset Tables.firecodeFinal bytes

/-- `FirecodeOK` of a header: its firecode word is the firecode of the bytes it covers (R180, R181). -/
def firecodeOk (header : List Byte) : Bool :=
  firecode (Tables.firecodeCovered header) == Tables.firecodeWord header

/-- `CRC16` (R214). -/
def crc16 (bytes : List Byte) : Half := checkValue Tables.crcPoly Tables.crcPreset Tables.crcFinal bytes

/-- A byte string ends in the CRC-16 of the bytes before (R103, R113, R214); false below two bytes. -/
def crcOk (bytes : List Byte) : Bool :=
  Tables.crcLen ≤ bytes.length &&
    crc16 (Tables.crcCovered bytes) == Tables.crcWord bytes

end Sys2Proof.Machine
end

