-- ==== Sys2Proof/Machine/AuExtract.lean ====
section
/-! DEFINITION. Header parsing and access-unit extraction (R210 to R221). -/

namespace Sys2Proof.Machine

/-- A header configuration `(hdr, n, au_start[0..n])` (R210). -/
structure HeaderConfig where
  /-- The audio-parameter byte. -/
  hdr : Byte
  /-- The number of AUs. -/
  n : Nat
  /-- The offsets `au_start[0..n]`. -/
  auStart : List Nat
  deriving DecidableEq, Repr

/-- The field of `len` bits at bit offset `off` of a byte string (R10, R64, R101). -/
def bitString (b : List Byte) (off len : Nat) : Nat :=
  Tables.formatNumber ((List.range len).map fun i => Tables.formatBit (byteAt b ((off + i) / 8)) ((off + i) % 8))

/-- The packed field `au_start[i]`, `1 ≤ i`, of the data (R101, R210). -/
def auStartField (data : List Byte) (i : Nat) : Nat :=
  bitString data (Tables.auFieldOffset i) Tables.auFieldBits

/-- `ParseHeader` of the corrected data, for subchannel size `s` (R210, R211). -/
def parseHeader (s : Nat) (data : List Byte) : HeaderConfig :=
  let hdr := Tables.audioParams data
  let (n, first) := Tables.auTable (Tables.dacRate hdr) (Tables.sbrFlag hdr)
  { hdr := hdr
    n := n
    auStart := first :: ((List.range (n - 1)).map fun i => auStartField data (i + 1)) ++ [Tables.rsDataLen * s] }

/-- Every entry of the list is below the next. -/
def strictlyIncreasing : List Nat → Bool
  | [] => true
  | [_] => true
  | a :: b :: rest => decide (a < b) && strictlyIncreasing (b :: rest)

/-- `TableValid`: the offsets `au_start[0], …, au_start[n]` are strictly increasing (R212). -/
def tableValid (h : HeaderConfig) : Bool := strictlyIncreasing h.auStart

/-- The sticky configuration that stores a header configuration: entries above `n` hold 0 (R29, R160). -/
def LastGood.store (h : HeaderConfig) : LastGood where
  valid := true
  hdr := h.hdr
  numAus := BitVec.ofNat 4 h.n
  auStart := Vector.ofFn fun i => BitVec.ofNat 16 (h.auStart.getD i.val 0)

/-- The header configuration that the sticky configuration holds (R162). -/
def LastGood.config (g : LastGood) : HeaderConfig where
  hdr := g.hdr
  n := g.numAus.toNat
  auStart := (g.auStart.toList.take (g.numAus.toNat + 1)).map (·.toNat)

/-- One access unit as it is forwarded. -/
structure AuRecord where
  /-- Its index. -/
  index : Nat
  /-- Its validity flag. -/
  valid : Bool
  /-- Its payload, without the CRC bytes. -/
  payload : List Byte
  deriving DecidableEq, Repr

/-- The bytes of AU `i` of a table: `D[au_start[i] .. au_start[i+1] − 1]` (R103). -/
def auBytes (data : List Byte) (h : HeaderConfig) (i : Nat) : List Byte :=
  (data.take (h.auStart.getD (i + 1) 0)).drop (h.auStart.getD i 0)

/-- Whether a byte of the range `[a, e)` lies in an uncorrectable row: row `p mod s` holds byte `p` (R200, R217). -/
def touchesUncorrectable (s : Nat) (unc : List Bool) (a e : Nat) : Bool :=
  (List.range (e - a)).any fun k => unc.getD (Tables.interleaveRow s (a + k)) false

/-- AU `i` of a table: valid when its CRC matches and no byte of it lies in an uncorrectable row; the payload is the AU
without its two CRC bytes, empty below two bytes (R214 to R217). -/
def auRecord (s : Nat) (data : List Byte) (unc : List Bool) (h : HeaderConfig) (i : Nat) : AuRecord :=
  let bytes := auBytes data h i
  { index := i
    valid := crcOk bytes && !touchesUncorrectable s unc (h.auStart.getD i 0) (h.auStart.getD (i + 1) 0)
    payload := Tables.crcCovered bytes }

/-- All AUs of a table, in increasing index (R216). -/
def auRecords (s : Nat) (data : List Byte) (unc : List Bool) (h : HeaderConfig) : List AuRecord :=
  (List.range h.n).map (auRecord s data unc h)

/-- The number of AUs that are not valid (R216). -/
def invalidAus (aus : List AuRecord) : Nat := aus.countP (fun a => !a.valid)

/-- `ExtractAUs`: one AU event for each AU, and the two counters (R216, R218). -/
def extractAus (hdr : Byte) (aus : List AuRecord) (s : State) : State :=
  countAus (invalidAus aus) aus.length (emitAll (aus.map fun a => auEvent a.index a.valid hdr a.payload) s)

end Sys2Proof.Machine
end

