-- ==== Sys2Proof/Machine/DynamicLabel.lean ====
section
/-! DEFINITION. Dynamic Label assembly (R260 to R270). -/

namespace Sys2Proof.Machine

/-- `ClearSlots` (R260): every slot, the last marker and the character set; `asm_active` and `asm_toggle` stay. -/
def LabelAsm.clearSlots (a : LabelAsm) : LabelAsm :=
  { a with charset := 0, lastValid := false, last := 0, slots := Vector.replicate Config.dlModulus Slot.empty }

/-- One decoded label segment (R246, R260). -/
structure SegmentInfo where
  /-- The toggle bit. -/
  toggle : Bool
  /-- The segment number. -/
  seg : BitVec 3
  /-- The last-segment flag. -/
  last : Bool
  /-- The character set, meaningful for segment 0. -/
  charset : BitVec 4
  /-- 1 to 16 bytes. -/
  payload : List Byte
  deriving DecidableEq, Repr

/-- The slot of a segment number, taken modulo `DL_MODULUS` (R262, R267). -/
def slotIndex (seg : BitVec 3) : Fin Config.dlModulus := Fin.ofNat _ seg.toNat

/-- The assembly after a segment is stored, before completion is looked at (R260 to R263). -/
def LabelAsm.store (g : SegmentInfo) (a : LabelAsm) : LabelAsm :=
  let b := if a.active && (g.toggle != a.toggle) then a.clearSlots else a
  { active := true
    toggle := g.toggle
    charset := if g.seg = Tables.firstSegment then g.charset else b.charset
    lastValid := b.lastValid || g.last
    last := if g.last then g.seg else b.last
    slots := b.slots.set (slotIndex g.seg) ⟨true, g.payload⟩ }

/-- The slots of segments 0 to `asm_last` (R264). -/
def LabelAsm.expected (a : LabelAsm) : List Slot := a.slots.toList.take (a.last.toNat + 1)

/-- A last marker has been seen and segments 0 to `asm_last` are all present (R264). -/
def LabelAsm.complete (a : LabelAsm) : Bool := a.lastValid && a.expected.all (·.present)

/-- The bytes of the label: the slots 0 to `asm_last` in order (R264). -/
def LabelAsm.text (a : LabelAsm) : List Byte := a.expected.flatMap (·.data)

/-- `LabelSegment` (R260): store the segment; when the label is complete, publish it, emit it and clear the assembly. -/
def labelSegment (g : SegmentInfo) (s : State) : State :=
  let a := s.asm.store g
  if a.complete then
    emit (labelEvent a.charset a.text)
      { s with asm := { a.clearSlots with active := false }, label := ⟨true, a.charset, a.text⟩ }
  else { s with asm := a }

end Sys2Proof.Machine
end

