-- ==== Sys2Proof/Machine/Pad.lean ====
section
/-! DEFINITION. The PAD processor and label data-group reassembly (R230 to R248). -/

namespace Sys2Proof.Machine

/-- `Segment(g)`: decode a label-segment group and hand it to the assembler; a segment that is not first but has number
0 is dropped (R246). -/
def segment (g : List Byte) (s : State) : State :=
  let p0 := Tables.dgPrefix0 g
  let p1 := Tables.dgPrefix1 g
  if Tables.dgMalformed p0 p1 then s
  else labelSegment
    { toggle := Tables.dgToggle p0
      seg := Tables.dgSegment p0 p1
      last := Tables.dgLast p0
      charset := Tables.dgCharset p0 p1
      payload := Tables.dgField g } s

/-- `GroupDone(g)`: check the CRC, ignore command groups, decode segments (R245). -/
def groupDone (p : Params) (g : List Byte) (s : State) : State :=
  if !crcOk g && p.dlCrcCheck then countDlCrcErr s
  else if Tables.dgCommand (Tables.dgPrefix0 g) then s
  else segment g s

/-- `ExpectedLen`: the length of a data group from its two prefix bytes (R244). -/
def expectedLen (p0 p1 : Byte) : Nat := Tables.dgPrefixLen + Tables.dgFieldLen p0 p1 + Tables.crcLen

/-- The buffered bytes are a whole data group (R243). -/
def groupComplete (buf : List Byte) : Bool :=
  Tables.dgPrefixLen ≤ buf.length && buf.length == expectedLen (Tables.dgPrefix0 buf) (Tables.dgPrefix1 buf)

/-- Write `dg_active` and `dg_buf` (R241, R243). -/
def setGroup (active : Bool) (buf : List Byte) (s : State) : State := { s with dgActive := active, dgBuf := buf }

/-- One byte taken by an open data group (R243). -/
def feedByte (p : Params) (b : Byte) (s : State) : State :=
  let buf := s.dgBuf ++ [b]
  if groupComplete buf then groupDone p buf (setGroup false [] s) else setGroup s.dgActive buf s

/-- `Feed`: take bytes one at a time; the bytes after a completed group are dropped (R243). -/
def feed (p : Params) : List Byte → State → State
  | [], s => s
  | b :: bytes, s => if s.dgActive then feed p bytes (feedByte p b s) else s

/-- `Dispatch(app, bytes)` (R241). -/
def dispatchSubfield (p : Params) (app : BitVec 5) (bytes : List Byte) (s : State) : State :=
  if app = Tables.appLabelStart then feed p bytes (setGroup true [] s)
  else if app = Tables.appLabelCont then if s.dgActive then feed p bytes s else s
  else emit (xpadSubfieldEvent app bytes) s

/-- `PADLengthErr` (R238). -/
def padLengthError (needed avail : Nat) (s : State) : State :=
  countPadLenErr (emit (padLengthErrorEvent needed avail) (raise (.padLength needed avail) s))

/-- Write `xpad_prev_len` and `xpad_prev_app` (R239). -/
def setXpadPrev (len : Nat) (app : BitVec 5) (s : State) : State :=
  { s with xpadPrevLen := BitVec.ofNat 6 len, xpadPrevApp := app }

/-- The length and application type that a contents indicator declares (R108). -/
def ciEntry (ci : Byte) : Nat × BitVec 5 := (Tables.subfieldLen (Tables.ciLengthIndicator ci), Tables.ciApp ci)

/-- The contents-indicator list in the first bytes of an X-PAD, of at most `max` bytes: the declared sub-fields and the
number of list bytes, an end marker included (R236). -/
def ciList : Nat → List Byte → List (Nat × BitVec 5) × Nat
  | 0, _ => ([], 0)
  | _ + 1, [] => ([], 0)
  | max + 1, ci :: rest =>
    if (ciEntry ci).2 = Tables.appEndMarker then ([], 1)
    else (ciEntry ci :: (ciList max rest).1, (ciList max rest).2 + 1)

/-- `WalkSubfields`: dispatch each sub-field that fits; the first that does not ends the frame's PAD (R237 to R239). -/
def walkSubfields (p : Params) (xpad : List Byte) : List (Nat × BitVec 5) → Nat → State → State
  | [], _, s => s
  | (len, app) :: subs, pos, s =>
    if xpad.length < pos + len then padLengthError (pos + len) xpad.length s
    else walkSubfields p xpad subs (pos + len)
      (setXpadPrev len app (dispatchSubfield p app ((xpad.drop pos).take len) s))

/-- `VarXPADWithCI` (R236). -/
def varXpadWithCi (p : Params) (xpad : List Byte) (s : State) : State :=
  walkSubfields p xpad (ciList Tables.ciMax xpad).1 (ciList Tables.ciMax xpad).2 s

/-- `VarXPADCont`: one sub-field that continues the last one dispatched (R240). -/
def varXpadCont (p : Params) (xpad : List Byte) (s : State) : State :=
  let len := s.xpadPrevLen.toNat
  let app := Tables.contApp s.xpadPrevApp
  if len = 0 then s
  else if xpad.length < len then padLengthError len xpad.length s
  else
    let t := dispatchSubfield p app (xpad.take len) s
    { t with xpadPrevApp := app }

/-- `ShortXPAD`: forwarded uninterpreted (R235). -/
def shortXpad (xpad : List Byte) (ci : Bool) (s : State) : State :=
  if ci then
    let app := Tables.ciApp (Tables.shortXpadCi xpad)
    emit (shortXpadEvent app true (Tables.shortXpadData true xpad)) { s with shortPrevApp := app }
  else emit (shortXpadEvent s.shortPrevApp false (Tables.shortXpadData false xpad)) s

/-- `ProcessPAD` of an accepted frame (R230 to R233). -/
def processPad (p : Params) (frame : List Byte) (s : State) : State :=
  let fb1 := Tables.fpadByte1 frame
  let fb2 := Tables.fpadByte2 frame
  let ci := Tables.ciFlag fb2
  if Tables.fpadType fb1 ≠ Tables.fpadTypeXpad then s
  else if Tables.xpadIndicator fb1 = Tables.xpadShort then shortXpad (Tables.xpad frame) ci s
  else if Tables.xpadIndicator fb1 = Tables.xpadVariable then
    if ci then varXpadWithCi p (Tables.xpad frame) s else varXpadCont p (Tables.xpad frame) s
  else s

end Sys2Proof.Machine
end

