-- ==== Sys2Proof/Machine/ReedSolomon.lean ====
section
/-! DEFINITION. The Reed-Solomon decoder (R190 to R203).

R196 fixes what decoding answers, not how; R197 allows any algorithm with that answer. This one:
* takes, among the monic polynomials of degree at most 5 that satisfy the first five key equations of the syndromes, the
  one of least degree (`locator`);
* takes the positions of the row that are its roots;
* interpolates the error value at each of them from the syndromes;
* accepts the corrected row only if it is a codeword at most 5 positions away. -/

namespace Sys2Proof.Machine

/-- Multiplication by `x` in GF(256): shift, and reduce by the field polynomial (R190). -/
def xtime (a : Byte) : Byte :=
  let shifted : BitVec 9 := a.setWidth 9 <<< 1
  (if shifted.msb then shifted ^^^ Tables.fieldPoly else shifted).setWidth 8

/-- `n` rounds of the multiplication loop of R190. -/
def gmulLoop : Nat → Byte → Byte → Byte → Byte
  | 0, _, _, r => r
  | n + 1, a, b, r => gmulLoop n (xtime a) (b >>> 1) (if b.getLsbD 0 then r ^^^ a else r)

/-- Multiplication in GF(256) (R190). -/
def gmul (a b : Byte) : Byte := gmulLoop 8 a b 0

/-- The power `a^n` in GF(256). -/
def gpow (a : Byte) : Nat → Byte
  | 0 => 1
  | n + 1 => gmul (gpow a n) a

/-- `n` rounds of square and multiply: the product of `sq`, `sq^2`, `sq^4`, … and `acc`. -/
def ginvLoop : Nat → Byte → Byte → Byte
  | 0, _, acc => acc
  | n + 1, sq, acc => ginvLoop n (gmul sq sq) (gmul acc sq)

/-- The inverse in GF(256): `a^254`, that is `a^2 · a^4 · … · a^128`. -/
def ginv (a : Byte) : Byte := ginvLoop 7 (gmul a a) 1

/-- Horner's rule from the value `acc`: coefficients stand highest degree first. -/
def horner (x : Byte) : Byte → List Byte → Byte
  | acc, [] => acc
  | acc, c :: coeffs => withValue (gmul acc x ^^^ c) fun acc' => horner x acc' coeffs

/-- The value at `x` of a polynomial whose coefficients stand highest degree first. -/
def evalHigh (coeffs : List Byte) (x : Byte) : Byte := horner x 0 coeffs

/-- The byte of a codeword that is the coefficient of `x^d` (R193). -/
def degreePosition (d : Nat) : Nat := (List.range Tables.rsCodeLen).findIdx fun k => Tables.rsDegree k == d

/-- The coefficients of the polynomial of a row, highest degree first (R193). -/
def coefficients (row : List Byte) : List Byte :=
  (List.range Tables.rsCodeLen).reverse.map fun d => byteAt row (degreePosition d)

/-- The syndromes of a row: its values at the roots of the generator polynomial, `S_i = r(α^i)`, `i = 0..9` (R195). -/
def syndromes (row : List Byte) : List Byte :=
  let coeffs := coefficients row
  (List.range Tables.rsParityLen).map fun i => evalHigh coeffs (gpow Tables.alpha (Tables.rsRootExponent i))

/-- A row is a codeword exactly when all its syndromes are 0 (R193, R195). -/
def isCodeword (row : List Byte) : Bool := (syndromes row).all (· == 0)

/-- `dist`: the number of positions in which two rows differ (R196). -/
def rowDist (a b : List Byte) : Nat := (List.zipWith (fun x y => if x = y then 0 else 1) a b).sum

/-- The value at `x` of a polynomial whose coefficients stand lowest degree first. -/
def evalLow : List Byte → Byte → Byte
  | [], _ => 0
  | c :: cs, x => c ^^^ gmul x (evalLow cs x)

/-- `Σ_j a_j · b_j` over the shorter of the two lists. -/
def dot : List Byte → List Byte → Byte
  | a :: as, b :: bs => gmul a b ^^^ dot as bs
  | _, _ => 0

/-- `w + c · v` of two coefficient lists of one length. -/
def addMul (w : List Byte) (c : Byte) (v : List Byte) : List Byte := List.zipWith (fun x y => x ^^^ gmul c y) w v

/-- The monomials `x^0 … x^t` as coefficient lists, lowest degree first. -/
def monomials : List (List Byte) :=
  (List.range (Tables.rsCapacity + 1)).map fun d =>
    (List.range (Tables.rsCapacity + 1)).map fun j => if j = d then 1 else 0

/-- The key equation number `i` at a polynomial `λ`: `Σ_j λ_j · S_{i+j}`. -/
def keyValue (synd : List Byte) (i : Nat) (poly : List Byte) : Byte := dot poly (synd.drop i)

/-- From polynomials of rising degree, those that satisfy one more linear equation `φ = 0`: the first that fails it is
dropped, and used to correct each later one. Degrees and leading coefficients stay. -/
def sift (φ : List Byte → Byte) : List (List Byte) → List (List Byte)
  | [] => []
  | v :: rest =>
    if φ v = 0 then v :: sift φ rest else rest.map fun w => addMul w (gmul (φ w) (ginv (φ v))) v

/-- The least-degree monic polynomial of degree at most 5 that satisfies the key equations 0 to 4. -/
def locator (synd : List Byte) : List Byte :=
  (((List.range Tables.rsCapacity).foldl (fun polys i => sift (keyValue synd i) polys) monomials).head?).getD []

/-- The factor by which the contribution of an error at position `k` grows from one syndrome to the next: its locator
`X_k = α^{119-k}` to the power of the root spacing 1 (R191, R193, R197). -/
def positionLocator (k : Nat) : Byte := gpow Tables.alpha (Tables.rsRootSpacing * Tables.rsDegree k)

/-- The factor of an error at position `k` in the first syndrome: `X_k` to the power of the first root's exponent 0 (R191,
R195). -/
def firstFactor (k : Nat) : Byte := gpow Tables.alpha (Tables.rsFirstRoot * Tables.rsDegree k)

/-- The positions of a row at which the locator polynomial is 0. -/
def rootPositions (poly : List Byte) : List Nat :=
  (List.range Tables.rsCodeLen).filter fun k => evalLow poly (positionLocator k) == 0

/-- `(x + a) · p(x)`, lowest degree first. -/
def mulLinear (a : Byte) (p : List Byte) : List Byte := List.zipWith (· ^^^ ·) (p.map (gmul a) ++ [0]) (0 :: p)

/-- The error value at position `k` when the errors lie in `positions`: with `P` the product of `x + X_m` over the other
positions, `Σ_j P_j · S_j = e_k · f_k · P(X_k)`, where `f_k` is the error's factor in the first syndrome. -/
def errorValue (synd : List Byte) (positions : List Nat) (k : Nat) : Byte :=
  let poly := (positions.filter (· != k)).foldr (fun m p => mulLinear (positionLocator m) p) [1]
  gmul (dot poly synd) (ginv (gmul (firstFactor k) (evalLow poly (positionLocator k))))

/-- The row with the error values taken off at the given positions. -/
def correctRow (row synd : List Byte) (positions : List Nat) : List Byte :=
  row.mapIdx fun k c => if positions.contains k then c ^^^ errorValue synd positions k else c

/-- What decoding a row answers: the row, the corrected bytes, and whether the row was uncorrectable (R196). -/
structure RowResult where
  /-- The codeword, or the row as received. -/
  row : List Byte
  /-- How many bytes were corrected. -/
  count : Nat
  /-- Whether no codeword lies within distance 5. -/
  uncorrectable : Bool
  deriving DecidableEq, Repr

/-- `DecodeRow` (R196). -/
def decodeRow (row : List Byte) : RowResult :=
  let synd := syndromes row
  if synd.all (· == 0) then ⟨row, 0, false⟩
  else
    let positions := rootPositions (locator synd)
    let fixed := correctRow row synd positions
    if isCodeword fixed && decide (rowDist fixed row ≤ Tables.rsCapacity) then ⟨fixed, rowDist fixed row, false⟩
    else ⟨row, 0, true⟩

/-- Row `j` of the matrix view of a window: the bytes `W[j + k × s]` (R192). -/
def matrixRow (s : Nat) (window : List Byte) (j : Nat) : List Byte :=
  (List.range Tables.rsCodeLen).map fun k => byteAt window (Tables.interleave s j k)

/-- What decoding a window answers (R199). -/
structure RsResult where
  /-- The corrected data buffer `D`. -/
  data : List Byte
  /-- `unc[0..s-1]`. -/
  unc : List Bool
  /-- The corrected bytes of all rows. -/
  corr : Nat
  deriving DecidableEq, Repr

/-- `RSDecode`: every row decoded, and each data byte taken from the row and the column that hold it (R192, R199). -/
def rsDecode (s : Nat) (window : List Byte) : RsResult :=
  let rows := (List.range s).map fun j => decodeRow (matrixRow s window j)
  let codewords := rows.map (·.row)
  { data := (List.range (Tables.rsDataLen * s)).map fun p =>
      byteAt (codewords.getD (Tables.interleaveRow s p) []) (Tables.interleaveColumn s p)
    unc := rows.map (·.uncorrectable)
    corr := (rows.map (·.count)).sum }

end Sys2Proof.Machine
end

