-- ==== Sys2Proof/Machine/Telemetry.lean ====
section
/-! DEFINITION. The telemetry aggregator: success rate and the COUNTERS event (R284 to R286). The counter updates are in
`Ops.lean`. -/

namespace Sys2Proof.Machine

/-- The sum of `ok` over the history (R284). -/
def sumOk (hist : List (BitVec 3 × BitVec 3)) : Nat := (hist.map fun e => e.1.toNat).sum

/-- The sum of `tot` over the history (R284). -/
def sumTot (hist : List (BitVec 3 × BitVec 3)) : Nat := (hist.map fun e => e.2.toNat).sum

/-- `floor(100 × Σ ok / Σ tot)` over the history (R284); 0 for the empty history (R32). -/
def rateOf (hist : List (BitVec 3 × BitVec 3)) : Byte := BitVec.ofNat 8 (100 * sumOk hist / sumTot hist)

/-- The history with one pair more, and without its oldest when it grows past the window (R284). -/
def pushHist (window : Nat) (hist : List (BitVec 3 × BitVec 3)) (entry : BitVec 3 × BitVec 3) :
    List (BitVec 3 × BitVec 3) :=
  if window < (hist ++ [entry]).length then (hist ++ [entry]).drop 1 else hist ++ [entry]

/-- `SuccessRateUpdate(ok, tot)` (R284). -/
def successRateUpdate (p : Params) (ok tot : Nat) (s : State) : State :=
  let hist := pushHist p.srWindow s.srHist (BitVec.ofNat 3 ok, BitVec.ofNat 3 tot)
  { s with srHist := hist, successRate := rateOf hist }

/-- The five counters that the COUNTERS event carries (R286). -/
def reportedCounters (c : Counters) : List Word := [c.frameErr, c.auErr, c.rsCorr, c.rsUncorr, c.padLenErr]

/-- `EmitCountersIfChanged(c0)`, with the counters at the start of the command (R286). -/
def emitCountersIfChanged (c0 : Counters) (s : State) : State :=
  if reportedCounters s.counters = reportedCounters c0 then s else emit (countersEvent s.counters) s

end Sys2Proof.Machine
end

