-- ==== Sys2Proof/Machine/Superframe.lean ====
section
/-! DEFINITION. ADD_FRAME: the framing check, the window and the superframe pipeline (R150 to R169). -/

namespace Sys2Proof.Machine

/-- The outcome of a superframe (R159). -/
inductive SfOutcome where
  /-- OK, code 0. -/
  | ok
  /-- FALLBACK, code 1. -/
  | fallback
  /-- REJECT_HEADER, code 2. -/
  | rejectHeader
  /-- REJECT_BOUNDARY, code 3. -/
  | rejectBoundary
  deriving DecidableEq, Repr

/-- The code that SUPERFRAME_STATUS carries (R159). -/
def SfOutcome.code : SfOutcome → Byte
  | .ok => 0
  | .fallback => 1
  | .rejectHeader => 2
  | .rejectBoundary => 3

/-- What the header decides: the configuration in use, if any, and the outcome. -/
structure HeaderDecision where
  /-- `use`; none is NONE. -/
  use : Option HeaderConfig
  /-- The outcome. -/
  outcome : SfOutcome
  deriving DecidableEq, Repr

/-- Whether the header passes: the firecode of the corrected data, or of the raw window when `FC_STAGE` is 0 (R158). -/
def headerPasses (p : Params) (window data : List Byte) : Bool :=
  if p.fcStage then firecodeOk (Tables.header data) else firecodeOk (Tables.header window)

/-- `fail_run + 1`, saturating (R27, R162). -/
def nextFailRun (s : State) : Byte := satAdd8 s.failRun 1

/-- What a header decides in a state (R157, R161, R162). -/
def decideHeader (p : Params) (pass : Bool) (cand : HeaderConfig) (s : State) : HeaderDecision :=
  if pass then
    if tableValid cand then ⟨some cand, .ok⟩ else ⟨none, .rejectBoundary⟩
  else if s.lastGood.valid && decide ((nextFailRun s).toNat < p.desyncThreshold) then
    ⟨some s.lastGood.config, .fallback⟩
  else ⟨none, .rejectHeader⟩

/-- Firecode pass: `fail_run` 0, LOCKED, and the sticky configuration when the table is valid; else AUBoundaryError
(R160, R161). -/
def headerPassed (cand : HeaderConfig) (s : State) : State :=
  let t := { s with failRun := 0, syncState := .locked }
  if tableValid cand then { t with lastGood := LastGood.store cand } else countFrameErr (raise .auBoundary t)

/-- Firecode failure: HeaderIntegrityError, one failure more in a row, and desynchronisation at the threshold (R162). -/
def headerFailed (p : Params) (s : State) : State :=
  let t := { countFrameErr (raise .headerIntegrity s) with failRun := nextFailRun s }
  if p.desyncThreshold ≤ (nextFailRun s).toNat then { t with syncState := .desync, lastGood := LastGood.cleared } else t

/-- The state changes of the header decision. -/
def applyHeader (p : Params) (pass : Bool) (cand : HeaderConfig) (s : State) : State :=
  if pass then headerPassed cand s else headerFailed p s

/-- Count the RS results, and raise UncorrectableCodewordError when there is such a row (R157, R165). -/
def applyRs (corr nunc : Nat) (s : State) : State :=
  countRs corr nunc (if 0 < nunc then raise (.uncorrectableCodeword nunc) s else s)

/-- The AU path with the configuration in use: extract, and remember the number of AUs (R157, R164). -/
def applyAus (use : Option HeaderConfig) (aus : List AuRecord) (s : State) : State :=
  match use with
  | some h => { extractAus h.hdr aus s with nominalAus := BitVec.ofNat 3 h.n }
  | none => s

/-- The end of the pipeline: SF_COUNT, the success rate and the two events (R157, R166). -/
def reportSuperframe (p : Params) (outcome : SfOutcome) (corr nunc nfwd ninv ok tot : Nat) (s : State) : State :=
  let t := successRateUpdate p ok tot (countSuperframe s)
  emit (successRateEvent t.successRate)
    (emit (superframeStatusEvent outcome.code corr nunc nfwd ninv t.syncState.code t.failRun) t)

/-- The window after the pipeline: empty, or without its oldest frame when the boundary hunt is on and the header was
rejected (R156, R163). -/
def nextFrames (p : Params) (outcome : SfOutcome) (frames : List (List Byte)) : List (List Byte) :=
  if outcome = .rejectHeader ∧ p.boundaryHunt = true then frames.drop 1 else []

/-- `Superframe`: the pipeline for the complete window (R157). -/
def superframe (p : Params) (s : State) : State :=
  let rs := rsDecode s.subchannel s.window
  let nunc := rs.unc.countP id
  let pass := headerPasses p s.window rs.data
  let cand := parseHeader s.subchannel rs.data
  let d := decideHeader p pass cand s
  let aus := match d.use with
    | some h => auRecords s.subchannel rs.data rs.unc h
    | none => []
  let tot := match d.use with
    | some h => h.n
    | none => max s.nominalAus.toNat 1
  let ninv := invalidAus aus
  setFrames (nextFrames p d.outcome s.frames)
    (reportSuperframe p d.outcome rs.corr nunc aus.length ninv (aus.length - ninv) tot
      (applyAus d.use aus (applyRs rs.corr nunc (applyHeader p pass cand s))))

/-- The frame length a FRAMING_ERROR reports: 0 when unconfigured (R97, R151). -/
def expectedFrameLen (s : State) : Nat := if s.configured then s.frameLen else 0

/-- `FramingErr(L)`: the frame is dropped (R151). -/
def framingError (len : Nat) (s : State) : State :=
  countFrameErr (emit (framingErrorEvent len (expectedFrameLen s)) (raise (.framing len) s))

/-- An accepted frame: its PAD, the append, and the pipeline when the window is complete (R150, R152 to R155). -/
def acceptFrame (p : Params) (frame : List Byte) (s : State) : State :=
  let t := processPad p frame s
  let u := setFrames (t.frames ++ [frame]) t
  if u.frames.length = Config.framesPerSf then superframe p u else u

/-- A frame is accepted when the block is configured and the frame has the frame length (R151). -/
def frameAccepted (len : Nat) (s : State) : Bool := s.configured && len == s.frameLen

/-- ADD_FRAME, past the check of `rsv` (R150). -/
def addFrame (p : Params) (frame : List Byte) (s : State) : State :=
  emitCountersIfChanged s.counters
    (if frameAccepted frame.length s then acceptFrame p frame s else framingError frame.length s)

/-- ADD_FRAME (R150), with this hardware's parameters. `L` is the payload's length, which the decoder reads from `arg`. -/
def execAddFrame (rsv : Byte) (payload : List Byte) (s : State) : Host.Outcome State Fault Refusal :=
  .next (checkRsv 0x03 rsv (addFrame Config.hw payload) s)

end Sys2Proof.Machine
end

