-- ==== Sys2Proof/Machine/Dispatch.lean ====
section
/-! DEFINITION. One arm for each command, each a direct call of its meaning (R128). -/

namespace Sys2Proof.Machine

def exec (i : Instr) (s : State) : Host.Outcome State Fault Refusal :=
  match i with
  | .nop rsv arg => Sys2Proof.Machine.execNop rsv arg s
  | .config rsv bitrate => Sys2Proof.Machine.execConfig rsv bitrate s
  | .channelReset rsv arg => Sys2Proof.Machine.execChannelReset rsv arg s
  | .addFrame rsv payload => Sys2Proof.Machine.execAddFrame rsv payload s
  | .readReg rsv arg => Sys2Proof.Machine.execReadReg rsv arg s
  | .snapshot rsv arg => Sys2Proof.Machine.execSnapshot rsv arg s
  | .readLabel rsv arg => Sys2Proof.Machine.execReadLabel rsv arg s
  | .reserved07 rsv arg => Sys2Proof.Machine.execReserved07 rsv arg s
  | .reserved08 low rsv arg => Sys2Proof.Machine.execReserved08 low rsv arg s
  | .reserved10 low rsv arg => Sys2Proof.Machine.execReserved10 low rsv arg s
  | .reserved20 low rsv arg => Sys2Proof.Machine.execReserved20 low rsv arg s
  | .reserved40 low rsv arg => Sys2Proof.Machine.execReserved40 low rsv arg s
  | .reserved80 low rsv arg => Sys2Proof.Machine.execReserved80 low rsv arg s

end Sys2Proof.Machine
end

