-- ==== Sys2Proof/Machine/Fetch.lean ====
section
/-! DEFINITION. Reading the next command from the command stream, and the two holds (R78, R340, R342). -/

namespace Sys2Proof.Machine

/-- What the head of the stream offers: a hold, or a command and the state with the command's bytes consumed. -/
inductive Fetched where
  /-- No enabled step, and why. -/
  | hold (r : Refusal)
  /-- A whole command, and the state after its bytes are read. -/
  | run (i : Instr) (s : State)
  deriving DecidableEq, Repr

/-- A consumer that is ready accepts every record emitted so far (R78). -/
def consumerTakes (s : State) : State := if s.acceptsNow then { s with accepted := s.output.length } else s

/-- A record has been emitted and not accepted (R78). -/
def recordPending (s : State) : Bool := decide (s.accepted < s.output.length)

/-- The hold that an incomplete command is (R336, R340). -/
def holdOf : DecodeError → Refusal
  | .endOfInput => .endOfInput
  | .incompleteWord => .incompleteCommand
  | .incompletePayload => .incompleteCommand

/-- Hold, or read one command: its word and, for ADD_FRAME, its payload are consumed whatever the command then does (R82). -/
def fetch (s : State) : Fetched :=
  if recordPending s then .hold .awaitingConsumer
  else
    match decode s.input with
    | .ok (i, rest) => .run i { s with input := rest }
    | .error e => .hold (holdOf e)

end Sys2Proof.Machine
end

