-- ==== Sys2Proof/Machine/Step.lean ====
section
/-! DEFINITION. One step: one whole command of the stream (R15, R128), unless the block holds (R340, R342). -/

namespace Sys2Proof.Machine

/-- One step. The block holds while the consumer has not accepted a record (R78) and while the stream holds no whole
command (R340); otherwise it consumes the command at the head of the stream and executes it. -/
def step (s : State) : Host.Outcome State Fault Refusal :=
  match fetch (consumerTakes s) with
  | .hold r => .refused r
  | .run i t => exec i t

/-- The state with one command put at the head of the command stream, as if the host had just sent it and the consumer had
accepted every record before it. -/
def State.withFetchWord (s : State) (nbits w : Nat) : State :=
  { s with input := tableWordBytes nbits w, accepted := s.output.length }

end Sys2Proof.Machine
end

