-- ==== Sys2Proof/Safety.lean ====
section
/-! DEFINITION. The terms the claims use: the part of the state that is the block's own, the launch premises of R334, the
invariants of the state between commands, well-formed event records, and what the sender of a broadcast lays out. -/

namespace Sys2Proof.Machine

/-- The block's own state (R20), with the fields of the host interface at fixed values. -/
def State.blockOnly (s : State) : State :=
  { s with input := [], output := [], accepted := 0, acceptsNow := true, raised := [] }

/-! The launch premises of R334, each under its name there. -/

/-- What can happen next: the block executes one whole command, the host sends bytes (R335), the consumer accepts records or
starts or stops accepting them as they come (R78), or nothing happens. -/
inductive Move : State → State → Prop where
  /-- The block executes one whole command (R15). -/
  | command {s t : State} (h : step s = .next t) : Move s t
  /-- The host sends bytes. -/
  | send (s : State) (bytes : List Byte) : Move s (s.hostSend bytes)
  /-- The consumer accepts records. -/
  | accept (s : State) (n : Nat) : Move s (s.consumerAccept n)
  /-- The consumer starts or stops accepting records as they come. -/
  | ready (s : State) (now : Bool) : Move s (s.setAcceptsNow now)
  /-- Nothing happens. -/
  | idle (s : State) : Move s s

/-- `clean_entry` (R334): the power-on reset state of R330, or a state reached from it by whole commands, with the moves of
the host and the consumer between them. -/
inductive CleanEntry : State → Prop where
  /-- Power-on reset. -/
  | reset : CleanEntry State.reset
  /-- One move from a clean entry. -/
  | move {s t : State} (hs : CleanEntry s) (h : Move s t) : CleanEntry t

/-- `stream_aligned` (R334), of a stream on which the host has sent `commands`: the first byte of the input is the first byte
of the first command's word, and the commands follow one another. -/
def StreamAligned (commands : List Instr) (s : State) : Prop :=
  (∀ i ∈ commands, i.wellFormed = true) ∧ commands.flatMap encode <+: s.input

/-- The stream holds whole commands and nothing after them, the premise that R340 adds for a run that ends. -/
def CompleteCommands (commands : List Instr) (s : State) : Prop :=
  StreamAligned commands s ∧ s.input = commands.flatMap encode

/-- A run: the states at times 0, 1, 2, …, each one move after the one before. -/
def Run (σ : Nat → State) : Prop := ∀ n, Move (σ n) (σ (n + 1))

/-- `consumer_ready` (R334, R342), of a run: the consumer accepts every event record eventually. -/
def ConsumerReady (σ : Nat → State) : Prop := ∀ n, ∃ m, n ≤ m ∧ (σ n).output.length ≤ (σ m).accepted

/-- The configuration between commands: unconfigured or a legal bitrate (R21), and unconfigured while fatal (R307). -/
structure ConfigInv (p : Params) (s : State) : Prop where
  bitrate : s.cfgBitrate = 0 ∨ legalBitrate p s.cfgBitrate = true
  fatal : s.fatal = true → s.cfgBitrate = 0

/-- The superframe window between commands (R25, R168). -/
structure WindowInv (p : Params) (s : State) : Prop where
  config : ConfigInv p s
  frameLen : ∀ f ∈ s.frames, f.length = s.frameLen
  fill : s.frames.length ≤ Config.framesPerSf - 1
  unconfigured : s.cfgBitrate = 0 → s.frames = []

/-- A stored AU Start Table (R28, R29): as many AUs as its audio-parameter byte says, offsets that increase from the first
AU's to the end of the data region, and 0 above. -/
structure StoredTable (s : State) : Prop where
  count : s.lastGood.numAus.toNat = (Tables.auTable (s.lastGood.hdr.getLsbD 6) (s.lastGood.hdr.getLsbD 5)).1
  first : s.lastGood.config.auStart.head? =
    some (Tables.auTable (s.lastGood.hdr.getLsbD 6) (s.lastGood.hdr.getLsbD 5)).2
  last : s.lastGood.config.auStart.getLast? = some (Tables.rsDataLen * s.subchannel)
  increasing : tableValid s.lastGood.config = true
  unused : ∀ k : Fin 10, s.lastGood.numAus.toNat < k.val → s.lastGood.auStart[k] = 0

/-- The frame-boundary state machine between commands (R26 to R30). -/
structure HeaderInv (p : Params) (s : State) : Prop where
  config : ConfigInv p s
  desync : s.syncState = .desync ↔ p.desyncThreshold ≤ s.failRun.toNat
  locked : s.lastGood.valid = true → s.syncState = .locked
  cleared : s.lastGood.valid = false → s.lastGood = LastGood.cleared
  table : s.lastGood.valid = true → StoredTable s
  nominal : s.nominalAus.toNat ∈ [0, 2, 3, 4, 6]

/-- Telemetry between commands (R32, R284): a bounded history of pairs `ok ≤ tot`, `1 ≤ tot ≤ 6`, and the rate they give. -/
structure TelemetryInv (p : Params) (s : State) : Prop where
  window : s.srHist.length ≤ p.srWindow
  pairs : ∀ e ∈ s.srHist, e.1 ≤ e.2 ∧ 1 ≤ e.2.toNat ∧ e.2.toNat ≤ 6
  rate : s.successRate.toNat = 100 * sumOk s.srHist / sumTot s.srHist
  bound : s.successRate.toNat ≤ 100
  forwarded : s.counters.auErr ≤ s.counters.auFwd

/-- The X-PAD continuation state and the data-group buffer between commands (R33, R34): an open group is not yet whole. -/
structure PadInv (s : State) : Prop where
  prevLen : s.xpadPrevLen.toNat ∈ [0, 4, 6, 8, 12, 16, 24, 32, 48]
  closed : s.dgActive = false → s.dgBuf = []
  partialGroup : 2 ≤ s.dgBuf.length → s.dgBuf.length < expectedLen (byteAt s.dgBuf 0) (byteAt s.dgBuf 1)
  bound : s.dgBuf.length < 20

/-- The label assembly and the completed label between commands (R35, R36, R268). -/
structure LabelInv (s : State) : Prop where
  inactive : s.asm.active = false → s.asm = { LabelAsm.cleared with toggle := s.asm.toggle }
  present : ∀ k : Fin 8, s.asm.slots[k].present = true → 1 ≤ s.asm.slots[k].data.length ∧ s.asm.slots[k].data.length ≤ 16
  absent : ∀ k : Fin 8, s.asm.slots[k].present = false → s.asm.slots[k].data = []
  partialLabel : s.asm.complete = false
  noLabel : s.label.valid = false → s.label = LabelReg.cleared
  labelLen : s.label.valid = true → 1 ≤ s.label.text.length ∧ s.label.text.length ≤ 128

/-- A record the block may emit: a tag of R91, and a body whose length two bytes can hold (R90). -/
abbrev EventOk (e : Event) : Prop := (1 ≤ e.tag.toNat ∧ e.tag.toNat ≤ 0x0E) ∧ e.body.length < 65536

/-- Read one record from the event stream, as a consumer does: tag, length, body (R90). -/
def parseEvent : List Byte → Option (Event × List Byte)
  | tag :: l1 :: l0 :: rest =>
    if (be16 l1 l0).toNat ≤ rest.length then
      some (⟨tag, rest.take (be16 l1 l0).toNat⟩, rest.drop (be16 l1 l0).toNat)
    else none
  | _ => none

/-- Read `n` records from the event stream. -/
def parseEvents : Nat → List Byte → Option (List Event × List Byte)
  | 0, bytes => some ([], bytes)
  | n + 1, bytes =>
    match parseEvent bytes with
    | some (e, rest) => (parseEvents n rest).map fun r => (e :: r.1, r.2)
    | none => none

/-- No counter of `c` is above that of `d` (R287). -/
structure CountersLe (c d : Counters) : Prop where
  frameErr : c.frameErr ≤ d.frameErr
  auErr : c.auErr ≤ d.auErr
  rsCorr : c.rsCorr ≤ d.rsCorr
  rsUncorr : c.rsUncorr ≤ d.rsUncorr
  padLenErr : c.padLenErr ≤ d.padLenErr
  dlCrcErr : c.dlCrcErr ≤ d.dlCrcErr
  sfCount : c.sfCount ≤ d.sfCount
  auFwd : c.auFwd ≤ d.auFwd

/-- The length of the sub-field that a contents indicator declares (R108). -/
def declaredLen (ci : Byte) : Nat := [4, 6, 8, 12, 16, 24, 32, 48].getD (ci.extractLsb' 5 3).toNat 0

/-- A sub-field as the sender lays it out: a contents indicator that is no end marker, and as many bytes as it declares
(R108). -/
abbrev SubfieldOk (e : Byte × List Byte) : Prop := e.1.extractLsb' 0 5 ≠ 0 ∧ e.2.length = declaredLen e.1

/-- What follows `n` contents indicators in a list: nothing after four, an end marker after fewer (R108). -/
abbrev ListEnd (n : Nat) (marker : List Byte) : Prop :=
  n = 4 ∧ marker = [] ∨ n < 4 ∧ ∃ m : Byte, marker = [m] ∧ m.extractLsb' 0 5 = 0

/-- What one sub-field of a variable-size X-PAD does (R239, R241): type 2 opens an empty data group and feeds it, type 3 feeds
a group that is open and is dropped otherwise, every other type goes out in an event; then its length and type are what a
later X-PAD continues. -/
def deliverSubfield (p : Params) (app : BitVec 5) (bytes : List Byte) (s : State) : State :=
  let t :=
    if app = 2 then feed p bytes { s with dgActive := true, dgBuf := [] }
    else if app = 3 then if s.dgActive = true then feed p bytes s else s
    else { s with output := s.output ++ [⟨0x07, app.setWidth 8 :: bytes⟩] }
  { t with xpadPrevLen := BitVec.ofNat 6 bytes.length, xpadPrevApp := app }

/-- What a PADLengthError does (R238). -/
def padLengthErrorEffect (needed avail : Nat) (s : State) : State :=
  { s with
    raised := s.raised ++ [.padLength needed avail]
    counters := { s.counters with padLenErr := satAdd32 s.counters.padLenErr 1 }
    output := s.output ++ [⟨0x05, be16Nat needed ++ be16Nat avail⟩] }

/-- Addition of two rows, position by position (R13). -/
def rowXor (a b : List Byte) : List Byte := List.zipWith (· ^^^ ·) a b

/-- The bytes of a label-segment data group: prefix, characters, CRC (R110, R111, R113). `p1` is prefix byte 1. -/
def labelGroup (p0 p1 : Byte) (payload : List Byte) : List Byte :=
  let covered := p0 :: p1 :: payload
  covered ++ be16Bytes (crc16 covered)

end Sys2Proof.Machine
end

