-- ==== Sys2Proof/Certificates/Slice0/Obligations.lean ====
section
/-! DEFINITION. The statements for the provers. Each docstring names the rules of `spec/` that its statement formalises.

The fields `input`, `output`, `accepted` and `acceptsNow` are the host interface as the model holds it (assumptions 1 and
16), and `raised` is its record of the errors that the rules raise (assumption 5); `blockOnly` is the state without them. -/

open Sys2Proof Sys2Proof.Machine

/-! ## Encoding -/

/-- Decoding the bytes of any well-formed command gives the command back and leaves the bytes after it (R80 to R83). -/
def Obligations.DecodeInvertsEncode : Prop :=
  ∀ (i : Instr) (rest : List Byte), i.wellFormed = true → decode (encode i ++ rest) = .ok (i, rest)

/-- Whatever bytes decode to a command are that command's encoding, and the command is well formed (R80 to R83, R87). -/
def Obligations.EncodeInvertsDecode : Prop :=
  ∀ (bytes rest : List Byte) (i : Instr), decode bytes = .ok (i, rest) → i.wellFormed = true ∧ encode i ++ rest = bytes

/-- Words written out from the opcode map decode to their commands (R81, R88; the words of 95_test_vectors.md 2.1). -/
def Obligations.SampleWordsDecode : Prop :=
  decode [0x00, 0x00, 0x00, 0x00] = .ok (.nop 0 0, []) ∧
  decode [0x01, 0x00, 0x00, 0xC0] = .ok (.config 0 192, []) ∧
  decode [0x02, 0x00, 0x00, 0x00] = .ok (.channelReset 0 0, []) ∧
  decode [0x03, 0x01, 0x00, 0x02, 0xAA, 0xBB, 0xCC] = .ok (.addFrame 1 [0xAA, 0xBB], [0xCC]) ∧
  decode [0x04, 0x00, 0x00, 0x18] = .ok (.readReg 0 0x18, []) ∧
  decode [0x05, 0x00, 0x00, 0x00] = .ok (.snapshot 0 0, []) ∧
  decode [0x06, 0x00, 0x00, 0x00] = .ok (.readLabel 0 0, []) ∧
  decode [0x07, 0x00, 0x00, 0x00] = .ok (.reserved07 0 0, []) ∧
  decode [0x0D, 0x00, 0x00, 0x00] = .ok (.reserved08 5 0 0, []) ∧
  decode [0x1E, 0x00, 0x00, 0x00] = .ok (.reserved10 14 0 0, []) ∧
  decode [0x3F, 0x00, 0x00, 0x00] = .ok (.reserved20 31 0 0, []) ∧
  decode [0x40, 0x00, 0x00, 0x00] = .ok (.reserved40 0 0 0, []) ∧
  decode [0xFF, 0x12, 0x34, 0x56] = .ok (.reserved80 127 0x12 0x3456, [])

/-- The extent of a command (R82): for opcode 0x03 the word and exactly `arg` payload bytes, whatever `rsv` is; for every
other opcode, reserved or not, the word alone. -/
def Obligations.CommandExtent : Prop :=
  ∀ (op rsv a1 a0 : Byte) (tail : List Byte),
    if op = 0x03 then
      if (be16 a1 a0).toNat ≤ tail.length then
        decode (op :: rsv :: a1 :: a0 :: tail) =
          .ok (.addFrame rsv (tail.take (be16 a1 a0).toNat), tail.drop (be16 a1 a0).toNat)
      else decode (op :: rsv :: a1 :: a0 :: tail) = .error .incompletePayload
    else
      ∃ i, decode (op :: rsv :: a1 :: a0 :: tail) = .ok (i, tail) ∧
        i.opcode = op ∧ i.rsv = rsv ∧ i.arg = be16 a1 a0 ∧ i.payload = []

/-! ## Steps and holds -/

/-- When no record is held up and the head of the stream decodes to a command, a step is that command at the state with
its bytes consumed and, if the consumer is ready, every record accepted (R15, R78, R128). When records are accepted is the
model's choice (assumption 16). -/
def Obligations.StepRunsDecodedCommand : Prop :=
  ∀ (s : State) (i : Instr) (rest : List Byte),
    (s.acceptsNow = true ∨ s.output.length ≤ s.accepted) → decode s.input = .ok (i, rest) →
      step s = exec i { s with
        input := rest
        accepted := if s.acceptsNow then s.output.length else s.accepted }

/-- When a step has no next state and when it has one (R78, R336, R340, R342): it holds while a record is not accepted,
else while the stream is exhausted, else while it ends inside a command; in every other state it completes. And under
`consumer_ready` (R334) no hold for the consumer lasts. That a hold is a refusal of `step` is the model's reading
(assumption 4). -/
def Obligations.StepHoldsExactlyWhen : Prop :=
  (∀ s : State,
    if s.acceptsNow = false ∧ s.accepted < s.output.length then step s = .refused .awaitingConsumer
    else if s.input = [] then step s = .refused .endOfInput
    else if s.input.length < 4 ∨ byteAt s.input 0 = 0x03 ∧
        s.input.length < 4 + (be16 (byteAt s.input 2) (byteAt s.input 3)).toNat then
      step s = .refused .incompleteCommand
    else ∃ t, step s = .next t) ∧
  ∀ σ : Nat → State, Run σ → ConsumerReady σ → ∀ n, ∃ m, n ≤ m ∧ step (σ m) ≠ .refused .awaitingConsumer

/-- A step consumes exactly the command it executes, and no other byte of the stream; the consumer's readiness is not
the block's to change (R23, R82). So a stream on which the host has sent whole commands stays aligned, on the commands after
the first (`stream_aligned`, R334). -/
def Obligations.StepConsumesItsCommand : Prop :=
  ∀ s t : State, step s = .next t →
    t.acceptsNow = s.acceptsNow ∧ (∃ i, s.input = encode i ++ t.input ∧ decode s.input = .ok (i, t.input)) ∧
    ∀ (i : Instr) (commands : List Instr), StreamAligned (i :: commands) s →
      decode s.input = .ok (i, t.input) ∧ StreamAligned commands t

/-- An illegal word (R84, R85): whatever the state, a step consumes the word of a reserved opcode, or of a defined opcode
whose `rsv` is not 0 with its payload, emits CMD_ERROR with the opcode and code 1 or 2, and changes no state. -/
def Obligations.IllegalWordsAreConsumed : Prop :=
  ∀ (s : State) (op rsv a1 a0 : Byte) (payload tail : List Byte),
    (s.acceptsNow = true ∨ s.output.length ≤ s.accepted) →
    s.input = op :: rsv :: a1 :: a0 :: (payload ++ tail) →
    payload.length = (if op = 0x03 then (be16 a1 a0).toNat else 0) →
    0x07 ≤ op.toNat ∨ rsv ≠ 0 →
      ∃ t, step s = .next t ∧ t.input = tail ∧ t.blockOnly = s.blockOnly ∧
        t.output = s.output ++ [⟨0x0A, [op, if 0x07 ≤ op.toNat then 1 else 2]⟩]

/-- What a command does to the block, and what it emits and raises, depends on the block's own state alone; it appends its
events and touches nothing else of the host interface (R20, R72, R78). That the host interface stands in fields of State is
the model's choice (assumptions 1 and 5). -/
def Obligations.CommandsReadOnlyTheBlockState : Prop :=
  ∀ (i : Instr) (s : State), ∃ (t : State) (events : List Event) (errors : List BlockError),
    ∀ u : State, u.blockOnly = s.blockOnly →
      exec i u = .next { t with
        input := u.input
        output := u.output ++ events
        accepted := u.accepted
        acceptsNow := u.acceptsNow
        raised := u.raised ++ errors }

/-- Bytes that the host sends later do not change a step (R15, R72). -/
def Obligations.LaterBytesDoNotChangeAStep : Prop :=
  ∀ (s t : State) (more : List Byte), step s = .next t → step (s.hostSend more) = .next (t.hostSend more)

/-! ## Control commands -/

/-- NOP (R120), for any `arg`: the next state is the state. -/
def Obligations.NopChangesNothing : Prop := ∀ (arg : Half) (s : State), exec (.nop 0 arg) s = .next s

/-- CONFIG (R121 to R124) in its three cases: illegal, the current bitrate, another legal bitrate. The session fields are
those of `State.reset`. -/
def Obligations.ConfigEffect : Prop :=
  ∀ (b : Half) (s : State), exec (.config 0 b) s = .next (
    if ¬(b.toNat % 8 = 0 ∧ 8 ≤ b.toNat ∧ b.toNat ≤ 192) then
      { State.reset with
        fatal := true
        input := s.input
        output := s.output ++ [⟨0x0B, be16Bytes b⟩]
        accepted := s.accepted
        acceptsNow := s.acceptsNow
        raised := s.raised ++ [.config b] }
    else if b = s.cfgBitrate then s
    else
      { State.reset with
        cfgBitrate := b
        input := s.input
        output := s.output
        accepted := s.accepted
        acceptsNow := s.acceptsNow
        raised := s.raised })

/-- CHANNEL_RESET (R125 to R127): every session field at its reset value, `cfg_bitrate` and `fatal` kept, no event. -/
def Obligations.ChannelResetEffect : Prop :=
  ∀ (arg : Half) (s : State), exec (.channelReset 0 arg) s = .next
    { State.reset with
      cfgBitrate := s.cfgBitrate
      fatal := s.fatal
      input := s.input
      output := s.output
      accepted := s.accepted
      acceptsNow := s.acceptsNow
      raised := s.raised }

/-- READ_REG (R130, R131): the value of an assigned index in one REG_VALUE event, CMD_ERROR 3 for the others; `arg[15:8]`
is ignored. The record `raised` is the model's (assumption 5). -/
def Obligations.ReadRegEffect : Prop :=
  ∀ (high idx : Byte) (s : State),
    if idx.toNat ≤ 0x18 then
      ∃ v, readRegister Config.hw s idx = some v ∧
        exec (.readReg 0 (be16 high idx)) s = .next { s with output := s.output ++ [⟨0x08, idx :: be32Bytes v⟩] }
    else
      exec (.readReg 0 (be16 high idx)) s = .next { s with
        output := s.output ++ [⟨0x0A, [0x04, 3]⟩]
        raised := s.raised ++ [.command 0x04 3] }

/-- The registers that hold one counter, the success rate or a constant (R40, R41, R44, R45). -/
def Obligations.RegisterMapValues : Prop :=
  ∀ s : State,
    readRegister Config.hw s 0x00 = some 0x44414250 ∧
    readRegister Config.hw s 0x03 = some s.counters.frameErr ∧
    readRegister Config.hw s 0x04 = some s.counters.auErr ∧
    readRegister Config.hw s 0x05 = some s.counters.rsCorr ∧
    readRegister Config.hw s 0x06 = some s.counters.rsUncorr ∧
    readRegister Config.hw s 0x07 = some s.counters.padLenErr ∧
    readRegister Config.hw s 0x08 = some s.counters.dlCrcErr ∧
    readRegister Config.hw s 0x09 = some s.counters.sfCount ∧
    readRegister Config.hw s 0x0A = some s.counters.auFwd ∧
    readRegister Config.hw s 0x0B = some (s.successRate.setWidth 32) ∧
    readRegister Config.hw s 0x18 = some 0x06190318

/-- The fields of register STATUS (R43), in every state whose fill the field can show, and its reset value. -/
def Obligations.StatusRegisterFields : Prop :=
  readRegister Config.hw State.reset 0x02 = some 0 ∧ ∀ s : State, s.frames.length ≤ 4 → ∃ v, readRegister Config.hw s 0x02 = some v ∧
    v.getLsbD 0 = decide (s.cfgBitrate ≠ 0) ∧ v.getLsbD 1 = s.fatal ∧ (v.extractLsb' 2 3).toNat = s.frames.length ∧
    v.extractLsb' 5 2 = (match s.syncState with | .noHeader => 0 | .locked => 1 | .desync => 2) ∧
    v.getLsbD 7 = false ∧ v.extractLsb' 8 8 = s.failRun ∧ v.getLsbD 16 = s.lastGood.valid ∧
    v.getLsbD 17 = s.label.valid ∧ v.getLsbD 18 = s.asm.active ∧ v.getLsbD 19 = s.dgActive ∧ v.extractLsb' 20 12 = 0

/-- The fields of registers CONFIG, LAST_GOOD, AU_START0 to AU_START9 and LABEL_INFO (R42, R46, R47), in every state whose
values fit them, and their reset values. -/
def Obligations.OtherRegisterFields : Prop :=
  (∀ idx : Byte, idx = 0x01 ∨ (0x0C ≤ idx.toNat ∧ idx.toNat ≤ 0x17) → readRegister Config.hw State.reset idx = some 0) ∧
  ∀ s : State, s.cfgBitrate.toNat / 8 < 256 → s.label.text.length < 256 → ∃ c g l,
    readRegister Config.hw s 0x01 = some c ∧ readRegister Config.hw s 0x0C = some g ∧
    readRegister Config.hw s 0x17 = some l ∧
    c.extractLsb' 0 16 = s.cfgBitrate ∧ (c.extractLsb' 16 8).toNat = s.cfgBitrate.toNat / 8 ∧ c.extractLsb' 24 8 = 0 ∧
    g.extractLsb' 0 8 = s.lastGood.hdr ∧ g.extractLsb' 8 4 = s.lastGood.numAus ∧ g.extractLsb' 12 19 = 0 ∧
    g.getLsbD 31 = s.lastGood.valid ∧
    (∀ k : Fin 10, readRegister Config.hw s (BitVec.ofNat 8 (0x0D + k.val)) = some (s.lastGood.auStart[k].setWidth 32)) ∧
    (l.extractLsb' 0 8).toNat = s.label.text.length ∧ l.extractLsb' 8 4 = s.label.charset ∧ l.extractLsb' 12 19 = 0 ∧
    l.getLsbD 31 = s.label.valid

/-- SNAPSHOT (R132, R133): one event with registers 0x02 to 0x0B as READ_REG reads them in the same state. -/
def Obligations.SnapshotEffect : Prop :=
  ∀ (arg : Half) (s : State), exec (.snapshot 0 arg) s = .next { s with
    output := s.output ++
      [⟨0x09, (List.range 10).flatMap fun k =>
        be32Bytes ((readRegister Config.hw s (BitVec.ofNat 8 (k + 2))).getD 0)⟩] }

/-- READ_LABEL (R134). -/
def Obligations.ReadLabelEffect : Prop :=
  ∀ (arg : Half) (s : State), exec (.readLabel 0 arg) s = .next { s with
    output := s.output ++
      [⟨0x0E, [if s.label.valid then 1 else 0, s.label.charset.setWidth 8, BitVec.ofNat 8 s.label.text.length] ++
        s.label.text⟩] }

/-- The reserved opcodes (R84), the six constructors of RESERVED rows: CMD_ERROR with the opcode and code 1, and no state
change; `rsv` and `arg` are not examined. -/
def Obligations.ReservedOpcodeEffect : Prop :=
  ∀ (i : Instr) (s : State), 0x07 ≤ i.opcode.toNat → exec i s = .next { s with
    output := s.output ++ [⟨0x0A, [i.opcode, 1]⟩]
    raised := s.raised ++ [.command i.opcode 1] }

/-- A defined opcode with a non-zero `rsv` (R85): CMD_ERROR with the opcode and code 2, and no state change. -/
def Obligations.NonzeroRsvEffect : Prop :=
  ∀ (i : Instr) (s : State), i.opcode.toNat ≤ 0x06 → i.rsv ≠ 0 → exec i s = .next { s with
    output := s.output ++ [⟨0x0A, [i.opcode, 2]⟩]
    raised := s.raised ++ [.command i.opcode 2] }

/-- NOP, READ_REG, SNAPSHOT and READ_LABEL change no element of the block's state (R69), whatever their fields. -/
def Obligations.ReadersChangeNoBlockState : Prop :=
  ∀ (i : Instr) (s : State), i.opcode ∈ [(0x00 : Byte), 0x04, 0x05, 0x06] →
    ∃ t, exec i s = .next t ∧ t.blockOnly = s.blockOnly

/-! ## Reset and invariants -/

/-- After power-on reset every register reads 0 but ID and PARAMS, and 0x19 to 0xFF are unassigned (R48, R50). -/
def Obligations.ResetRegisterValues : Prop :=
  ∀ idx : Byte, readRegister Config.hw State.reset idx =
    if idx = 0x00 then some 0x44414250 else if idx = 0x18 then some 0x06190318
    else if idx.toNat ≤ 0x17 then some 0 else none

/-- Power-on reset satisfies the five invariants of the state between commands (R50). -/
def Obligations.ResetSatisfiesInvariants : Prop :=
  WindowInv Config.hw State.reset ∧ HeaderInv Config.hw State.reset ∧ TelemetryInv Config.hw State.reset ∧
    PadInv State.reset ∧ LabelInv State.reset

/-- Every step keeps the window invariant: whole frames of the configured length, at most four of them (R25, R168). -/
def Obligations.StepKeepsWindowInv : Prop :=
  ∀ s t : State, WindowInv Config.hw s → step s = .next t → WindowInv Config.hw t

/-- Every step keeps the invariant of the frame-boundary state machine (R26 to R30): the sticky table stays valid for the
configured bitrate, and DESYNC stands exactly while the failures in a row have reached the threshold. -/
def Obligations.StepKeepsHeaderInv : Prop :=
  ∀ s t : State, HeaderInv Config.hw s → step s = .next t → HeaderInv Config.hw t

/-- Every step keeps the telemetry invariant (R32, R284): the history within its window, the rate the one the history
gives and at most 100. -/
def Obligations.StepKeepsTelemetryInv : Prop :=
  ∀ s t : State, HeaderInv Config.hw s → TelemetryInv Config.hw s → step s = .next t → TelemetryInv Config.hw t

/-- Every step keeps the PAD invariant (R33, R34, R243): an open data group is shorter than its prefix declares. -/
def Obligations.StepKeepsPadInv : Prop := ∀ s t : State, PadInv s → step s = .next t → PadInv t

/-- Every step keeps the label invariant (R35, R36, R268): no complete assembly is left unpublished, and the label has at
most 128 bytes. -/
def Obligations.StepKeepsLabelInv : Prop := ∀ s t : State, LabelInv s → step s = .next t → LabelInv t

/-! ## Events -/

/-- Every record a step emits has a tag of 1 to 0x0E and a body whose length two bytes hold (R90, R91). -/
def Obligations.StepEmitsWellFormedRecords : Prop :=
  ∀ s t : State, ConfigInv Config.hw s → LabelInv s → (∀ e ∈ s.output, EventOk e) → step s = .next t →
    ∀ e ∈ t.output, EventOk e

/-- The event stream of well-formed records is self-delimiting: reading it back record by record gives the records (R90). -/
def Obligations.EventStreamReadsBack : Prop :=
  ∀ (s : State) (tail : List Byte), (∀ e ∈ s.output, EventOk e) →
    parseEvents s.output.length (s.eventStream ++ tail) = some (s.output, tail)

/-! ## ADD_FRAME -/

/-- FramingError (R151, R286): an ADD_FRAME while unconfigured or of another length drops the frame, and changes nothing
but FRAME_ERR; COUNTERS follows unless FRAME_ERR was saturated. No stream carries a payload of 65536 bytes or more; for such a
term the event's length modulo 65536 is the model's choice (assumption 21), and the record `raised` is the model's
(assumption 5). -/
def Obligations.FramingErrorEffect : Prop :=
  ∀ (frame : List Byte) (s : State), ¬(s.cfgBitrate ≠ 0 ∧ frame.length = 24 * (s.cfgBitrate.toNat / 8)) →
    exec (.addFrame 0 frame) s = .next { s with
      counters := { s.counters with frameErr := satAdd32 s.counters.frameErr 1 }
      output := s.output ++
        [⟨0x0C, be16Nat frame.length ++ be16Nat (if s.cfgBitrate = 0 then 0 else 24 * (s.cfgBitrate.toNat / 8))⟩] ++
        (if s.counters.frameErr = 0xFFFFFFFF then []
          else [countersEvent { s.counters with frameErr := satAdd32 s.counters.frameErr 1 }])
      raised := s.raised ++ [.framing frame.length] }

/-- An accepted frame that does not complete the window (R150, R153, R167) is appended byte for byte behind the bytes
already there, and changes no configuration, header, success-rate or audio-counter state; the rest of the block's state is
what the frame's PAD makes of it. -/
def Obligations.AcceptedFrameJoinsWindow : Prop :=
  ∀ (frame : List Byte) (s : State), s.cfgBitrate ≠ 0 → frame.length = 24 * (s.cfgBitrate.toNat / 8) →
    s.frames.length ≠ 4 → ∃ t, exec (.addFrame 0 frame) s = .next t ∧
      t.blockOnly = ({ processPad Config.hw frame s with frames := s.frames ++ [frame] }).blockOnly ∧
      t.frames = s.frames ++ [frame] ∧
      (0 < s.frameLen → (∀ f ∈ s.frames, f.length = s.frameLen) →
        (∀ k, k < s.frames.length * s.frameLen → t.bufRead k = s.bufRead k) ∧
        (∀ k, k < s.frameLen → t.bufRead (s.frames.length * s.frameLen + k) = frame[k]?)) ∧
      t.cfgBitrate = s.cfgBitrate ∧ t.fatal = s.fatal ∧ t.syncState = s.syncState ∧ t.failRun = s.failRun ∧
      t.lastGood = s.lastGood ∧ t.nominalAus = s.nominalAus ∧ t.srHist = s.srHist ∧ t.successRate = s.successRate ∧
      t.counters = { s.counters with padLenErr := t.counters.padLenErr, dlCrcErr := t.counters.dlCrcErr }

/-- The frame that completes the window (R154 to R157): the pipeline runs once on the window with that frame, one
superframe is counted, the window is emptied, and the PAD state is what the frame's PAD alone makes of it. -/
def Obligations.FifthFrameRunsThePipeline : Prop :=
  ∀ (frame : List Byte) (s : State), s.cfgBitrate ≠ 0 → frame.length = 24 * (s.cfgBitrate.toNat / 8) →
    s.frames.length = 4 → ∃ t, exec (.addFrame 0 frame) s = .next t ∧
      t.blockOnly =
        (superframe Config.hw { processPad Config.hw frame s with frames := s.frames ++ [frame] }).blockOnly ∧
      t.frames = [] ∧ t.counters.sfCount = satAdd32 s.counters.sfCount 1 ∧
      t.cfgBitrate = s.cfgBitrate ∧ t.fatal = s.fatal ∧
      t.xpadPrevLen = (processPad Config.hw frame s).xpadPrevLen ∧
      t.xpadPrevApp = (processPad Config.hw frame s).xpadPrevApp ∧
      t.shortPrevApp = (processPad Config.hw frame s).shortPrevApp ∧
      t.dgActive = (processPad Config.hw frame s).dgActive ∧ t.dgBuf = (processPad Config.hw frame s).dgBuf ∧
      t.asm = (processPad Config.hw frame s).asm ∧ t.label = (processPad Config.hw frame s).label

/-- The events of an accepted frame (R73, R150, R166, R286): those of its PAD; then, when it completes the window, the AU
events in rising index, SUPERFRAME_STATUS and SUCCESS_RATE; and COUNTERS last, exactly when one of its five counters
changed. -/
def Obligations.AddFrameEventOrder : Prop :=
  ∀ (frame : List Byte) (s : State), s.cfgBitrate ≠ 0 → frame.length = 24 * (s.cfgBitrate.toNat / 8) →
    ∃ (t : State) (pad aus report counters : List Event), exec (.addFrame 0 frame) s = .next t ∧
      t.output = s.output ++ pad ++ aus ++ report ++ counters ∧
      (∀ e ∈ pad, e.tag ∈ [(0x02 : Byte), 0x05, 0x06, 0x07]) ∧ (∀ e ∈ aus, e.tag = 0x01) ∧
      (aus.map fun e => e.body.head?) = (List.range aus.length).map (fun k => some (BitVec.ofNat 8 k)) ∧
      (s.frames.length ≠ 4 → aus = []) ∧
      report.map (·.tag) = (if s.frames.length = 4 then [0x0D, 0x03] else []) ∧
      counters =
        (if t.counters.frameErr = s.counters.frameErr ∧ t.counters.auErr = s.counters.auErr ∧
            t.counters.rsCorr = s.counters.rsCorr ∧ t.counters.rsUncorr = s.counters.rsUncorr ∧
            t.counters.padLenErr = s.counters.padLenErr then []
          else [countersEvent t.counters])

/-- PAD processing and the audio path do not touch each other (R152), for every parameter setting. -/
def Obligations.PadAndAudioAreSeparate : Prop :=
  ∀ (p : Params) (frame : List Byte) (s : State),
    (let t := processPad p frame s;
      t.cfgBitrate = s.cfgBitrate ∧ t.fatal = s.fatal ∧ t.frames = s.frames ∧ t.syncState = s.syncState ∧
      t.failRun = s.failRun ∧ t.lastGood = s.lastGood ∧ t.nominalAus = s.nominalAus ∧ t.srHist = s.srHist ∧
      t.successRate = s.successRate ∧
      t.counters = { s.counters with padLenErr := t.counters.padLenErr, dlCrcErr := t.counters.dlCrcErr }) ∧
    (let t := superframe p s;
      t.cfgBitrate = s.cfgBitrate ∧ t.fatal = s.fatal ∧ t.xpadPrevLen = s.xpadPrevLen ∧
      t.xpadPrevApp = s.xpadPrevApp ∧ t.shortPrevApp = s.shortPrevApp ∧ t.dgActive = s.dgActive ∧
      t.dgBuf = s.dgBuf ∧ t.asm = s.asm ∧ t.label = s.label ∧ t.counters.padLenErr = s.counters.padLenErr ∧
      t.counters.dlCrcErr = s.counters.dlCrcErr)

/-- The frame-boundary state machine (R156, R159 to R163, the superframe rows of R167), for every parameter setting: what
the pipeline makes of the window, the sync state, the failures in a row and the sticky configuration. -/
def Obligations.HeaderStateMachine : Prop :=
  ∀ (p : Params) (s : State),
    let t := superframe p s
    let rs := rsDecode s.subchannel s.window
    let pass := headerPasses p s.window rs.data
    let cand := parseHeader s.subchannel rs.data
    let fails := min (s.failRun.toNat + 1) 255
    let hunted := if p.boundaryHunt then s.frames.drop 1 else []
    if pass = true then
      if tableValid cand = true then
        t.frames = [] ∧ t.syncState = .locked ∧ t.failRun = 0 ∧ t.lastGood = LastGood.store cand ∧
          t.counters.frameErr = s.counters.frameErr
      else
        t.frames = [] ∧ t.syncState = .locked ∧ t.failRun = 0 ∧ t.lastGood = s.lastGood ∧
          t.counters.frameErr = satAdd32 s.counters.frameErr 1
    else
      t.failRun.toNat = fails ∧ t.counters.frameErr = satAdd32 s.counters.frameErr 1 ∧
      (if p.desyncThreshold ≤ fails then
        t.frames = hunted ∧ t.syncState = .desync ∧ t.lastGood = LastGood.cleared
      else if s.lastGood.valid = true then
        t.frames = [] ∧ t.syncState = s.syncState ∧ t.lastGood = s.lastGood
      else t.frames = hunted ∧ t.syncState = s.syncState ∧ t.lastGood = s.lastGood)

/-- The RS results of every superframe are counted, whatever its outcome, and an uncorrectable codeword is raised as an
error (R165, R282). -/
def Obligations.PipelineCountsRsResults : Prop :=
  ∀ (p : Params) (s : State),
    let t := superframe p s
    let rs := rsDecode s.subchannel s.window
    t.counters.rsCorr = satAdd32 s.counters.rsCorr rs.corr ∧
    t.counters.rsUncorr = satAdd32 s.counters.rsUncorr (rs.unc.countP id) ∧
    (0 < rs.unc.countP id → .uncorrectableCodeword (rs.unc.countP id) ∈ t.raised) ∧
    t.counters.sfCount = satAdd32 s.counters.sfCount 1

/-- What the pipeline reports (R159, R166, R216, R218, R281, R284, R98), for every parameter setting: the AU events of the
configuration in use, SUPERFRAME_STATUS with the outcome OK 0, FALLBACK 1, REJECT_HEADER 2 or REJECT_BOUNDARY 3, and
SUCCESS_RATE, in that order and nothing else; one pair more in the history, of the
valid AUs and of the AUs of the configuration in use, or of the last one used when there is none; the rate of that history;
and AU_ERR, AU_FWD and `nominal_aus`. -/
def Obligations.PipelineReport : Prop :=
  ∀ (p : Params) (s : State),
    let t := superframe p s
    let rs := rsDecode s.subchannel s.window
    let pass := headerPasses p s.window rs.data
    let cand := parseHeader s.subchannel rs.data
    let fails := min (s.failRun.toNat + 1) 255
    let use : Option HeaderConfig :=
      if pass = true then if tableValid cand = true then some cand else none
      else if s.lastGood.valid = true ∧ fails < p.desyncThreshold then some s.lastGood.config else none
    let outcome : Byte :=
      if pass = true then if tableValid cand = true then 0 else 3
      else if s.lastGood.valid = true ∧ fails < p.desyncThreshold then 1 else 2
    let aus := match use with
      | some h => auRecords s.subchannel rs.data rs.unc h
      | none => []
    let hdr := match use with
      | some h => h.hdr
      | none => 0
    let tot := match use with
      | some h => h.n
      | none => max s.nominalAus.toNat 1
    let ok := aus.countP (·.valid)
    let bad := aus.countP (!·.valid)
    let hist := s.srHist ++ [(BitVec.ofNat 3 ok, BitVec.ofNat 3 tot)]
    t.output = s.output ++
      aus.map (fun a => ⟨0x01, [BitVec.ofNat 8 a.index, if a.valid then 1 else 0, hdr] ++ a.payload⟩) ++
      [⟨0x0D, [outcome] ++ be16Nat (min rs.corr 65535) ++ [BitVec.ofNat 8 (rs.unc.countP id),
        BitVec.ofNat 8 aus.length, BitVec.ofNat 8 bad, t.syncState.code, t.failRun]⟩, ⟨0x03, [t.successRate]⟩] ∧
    t.srHist = (if p.srWindow < hist.length then hist.drop 1 else hist) ∧
    t.successRate = BitVec.ofNat 8 (100 * sumOk t.srHist / sumTot t.srHist) ∧
    t.counters.auErr = satAdd32 s.counters.auErr bad ∧ t.counters.auFwd = satAdd32 s.counters.auFwd (ok + bad) ∧
    t.nominalAus = (if use.isSome then BitVec.ofNat 3 tot else s.nominalAus)

/-- On a firecode failure below the threshold, with the sticky configuration set by an accepted header, the pipeline emits
the AUs at that header's offsets of this superframe's corrected data (R162, R164, R216, R218). -/
def Obligations.FallbackUsesTheAcceptedHeader : Prop :=
  ∀ (p : Params) (s : State) (old : List Byte),
    let rs := rsDecode s.subchannel s.window
    let h := parseHeader s.subchannel old
    s.subchannel ≤ 37 → s.lastGood = LastGood.store h → headerPasses p s.window rs.data = false →
    s.failRun.toNat + 1 < p.desyncThreshold → p.desyncThreshold ≤ 255 →
      ∃ report : List Event, report.length = 2 ∧ (superframe p s).output = s.output ++
        (auRecords s.subchannel rs.data rs.unc h).map (fun a => auEvent a.index a.valid h.hdr a.payload) ++ report

/-! ## Access units -/

/-- The AUs of a valid table cover the data region from the first AU's offset to its end, in order and without gap or
overlap (R211, R212). -/
def Obligations.AccessUnitsTileTheData : Prop :=
  ∀ (size : Nat) (data : List Byte), data.length = 110 * size → tableValid (parseHeader size data) = true →
    let h := parseHeader size data
    (List.range h.n).flatMap (auBytes data h) = data.drop (h.auStart.getD 0 0) ∧
    ∀ i, i < h.n → 1 ≤ (auBytes data h i).length

/-- An uncorrectable row makes every AU of at least `s` bytes invalid, whatever its CRC (R200, R217). -/
def Obligations.UncorrectableRowTaintsLongAus : Prop :=
  ∀ (size : Nat) (data : List Byte) (unc : List Bool) (h : HeaderConfig) (i j : Nat), j < size →
    unc.getD j false = true → h.auStart.getD i 0 + size ≤ h.auStart.getD (i + 1) 0 →
      (auRecord size data unc h i).valid = false

/-! ## Reed-Solomon decoder -/

/-- Multiplication of R190 makes the bytes a field: commutative, associative, distributive over exclusive-or, with 1 as
unit and `ginv` as inverse. -/
def Obligations.GfMultiplicationIsAField : Prop :=
  ∀ a b c : Byte, gmul a b = gmul b a ∧ gmul (gmul a b) c = gmul a (gmul b c) ∧
    gmul a (b ^^^ c) = gmul a b ^^^ gmul a c ∧ gmul a 1 = a ∧ (a ≠ 0 → gmul a (ginv a) = 1)

/-- Two different codewords differ in at least 11 positions (R191). -/
def Obligations.CodewordsDifferInElevenPositions : Prop :=
  ∀ c d : List Byte, c.length = 120 → d.length = 120 → isCodeword c = true → isCodeword d = true → c ≠ d →
    11 ≤ rowDist c d

/-- DecodeRow is bounded-distance decoding of radius 5 (R196): the codeword within distance 5 when there is one, with the
distance as count; and the row as received, uncorrectable, exactly when there is none. -/
def Obligations.DecodeRowIsBoundedDistance : Prop :=
  ∀ r : List Byte, r.length = 120 →
    (∀ c : List Byte, c.length = 120 → isCodeword c = true → rowDist c r ≤ 5 →
      decodeRow r = ⟨c, rowDist c r, false⟩) ∧
    (decodeRow r = ⟨r, 0, true⟩ ↔ ∀ c : List Byte, c.length = 120 → isCodeword c = true → 5 < rowDist c r)

/-- The interleave of RSDecode (R192, R199): data byte `j + k × s` is byte `k` of decoded row `j`, and the row's status and
count go into `unc` and `corr`. -/
def Obligations.RsDecodeInterleaves : Prop :=
  ∀ (size : Nat) (window : List Byte),
    let rs := rsDecode size window
    rs.data.length = 110 * size ∧ rs.unc.length = size ∧
    rs.corr = ((List.range size).map fun j => (decodeRow (matrixRow size window j)).count).sum ∧
    ∀ j, j < size → rs.unc[j]? = some (decodeRow (matrixRow size window j)).uncorrectable ∧
      ∀ k, k < 110 → rs.data[j + k * size]? = some (byteAt (decodeRow (matrixRow size window j)).row k)

/-- A window whose every row is a codeword decodes to its own data region, with nothing corrected and no row
uncorrectable (R203). -/
def Obligations.CleanWindowDecodesToItself : Prop :=
  ∀ (size : Nat) (window : List Byte), window.length = 120 * size →
    (∀ j, j < size → isCodeword (matrixRow size window j) = true) →
      rsDecode size window = ⟨window.take (110 * size), List.replicate size false, 0⟩

/-! ## Firecode -/

/-- The firecode is linear (R183). -/
def Obligations.FirecodeIsLinear : Prop :=
  ∀ a b : List Byte, a.length = b.length → firecode (rowXor a b) = firecode a ^^^ firecode b

/-- A single bit error anywhere in the 11 bytes of a header that passes makes the check fail (R183). -/
def Obligations.FirecodeDetectsEverySingleBitError : Prop :=
  ∀ (header : List Byte) (i bit : Nat), header.length = 11 → firecodeOk header = true → i < 11 → bit < 8 →
    firecodeOk (header.modify i (· ^^^ ((1 : Byte) <<< bit))) = false

/-! ## PAD and label data groups -/

/-- A frame raises at most one PADLengthError, counted once, and its record carries the bytes needed and available, with
more needed than available; and it raises one exactly so: where the next sub-field of a contents-indicator list runs past the
X-PAD, with its end as the bytes needed and the sub-fields before it in effect; and where the continued length is more than the
X-PAD has (R237, R238, R240, R247). -/
def Obligations.PadLengthErrorAtMostOncePerFrame : Prop :=
  (∀ (p : Params) (frame : List Byte) (s : State),
    let t := processPad p frame s
    (t.raised = s.raised ∧ t.counters.padLenErr = s.counters.padLenErr) ∨
    ∃ needed, frame.length - 2 < needed ∧ t.raised = s.raised ++ [.padLength needed (frame.length - 2)] ∧
      t.counters.padLenErr = satAdd32 s.counters.padLenErr 1 ∧
      t.output.getLast? = some ⟨0x05, be16Nat needed ++ be16Nat (frame.length - 2)⟩) ∧
  (∀ (p : Params) (subs : List (Byte × List Byte)) (ci : Byte) (more marker rest : List Byte) (fb1 fb2 : Byte) (s : State),
    fb1.extractLsb' 4 4 = 0x2 → fb2.getLsbD 1 = true → (∀ e ∈ subs, SubfieldOk e) →
    (∀ c ∈ ci :: more, c.extractLsb' 0 5 ≠ (0 : BitVec 5)) → ListEnd (subs.length + 1 + more.length) marker →
    rest.length < declaredLen ci →
      let list := subs.map (·.1) ++ ci :: more ++ marker
      let data := subs.flatMap (·.2)
      processPad p ((list ++ data ++ rest).reverse ++ [fb1, fb2]) s =
        padLengthErrorEffect (list.length + data.length + declaredLen ci) (list ++ data ++ rest).length
          (subs.foldl (fun u e => deliverSubfield p (e.1.extractLsb' 0 5) e.2 u) s)) ∧
  (∀ (p : Params) (xpad : List Byte) (fb1 fb2 : Byte) (s : State),
    fb1.extractLsb' 4 4 = 0x2 → fb2.getLsbD 1 = false → xpad.length < s.xpadPrevLen.toNat →
      processPad p (xpad.reverse ++ [fb1, fb2]) s = padLengthErrorEffect s.xpadPrevLen.toNat xpad.length s)

/-- A frame whose F-PAD type is not 0, or whose X-PAD indicator is 0 or 3, changes nothing and emits nothing (R232, R233). -/
def Obligations.FrameWithoutXpadDoesNothing : Prop :=
  ∀ (p : Params) (body : List Byte) (fb1 fb2 : Byte) (s : State),
    fb1.extractLsb' 6 2 ≠ 0 ∨ fb1.extractLsb' 4 2 = 0 ∨ fb1.extractLsb' 4 2 = 3 →
      processPad p (body ++ [fb1, fb2]) s = s

/-- A short X-PAD (R235) is forwarded in one event and changes no state but `short_prev_app`. -/
def Obligations.ShortXpadEffect : Prop :=
  ∀ (p : Params) (body : List Byte) (x0 x1 x2 x3 fb1 fb2 : Byte) (s : State),
    fb1.extractLsb' 4 4 = 0x1 →
      processPad p (body ++ [x3, x2, x1, x0, fb1, fb2]) s =
        if fb2.getLsbD 1 = true then
          { s with
            shortPrevApp := x0.extractLsb' 0 5
            output := s.output ++ [⟨0x06, [(x0.extractLsb' 0 5).setWidth 8, 1, x1, x2, x3]⟩] }
        else { s with output := s.output ++ [⟨0x06, [s.shortPrevApp.setWidth 8, 0, x0, x1, x2, x3]⟩] }

/-- A variable-size X-PAD (R108, R231, R236, R237, R239 to R242). With a list of zero to four contents indicators, the
sub-fields it declares take effect one after the other, in list order, and the bytes after them are not read: type 2 opens an
empty label group and feeds it, type 3 feeds only an open group, every other type goes out in an XPAD_SUBFIELD event, and each
sets what a later X-PAD continues. Without a list, the last sub-field is continued: its length again, with the type that
continues its type; and nothing happens when there is none. -/
def Obligations.VariableXpadEffect : Prop :=
  ∀ (p : Params) (fb1 fb2 : Byte) (s : State), fb1.extractLsb' 4 4 = 0x2 →
    (fb2.getLsbD 1 = true →
      ∀ (subs : List (Byte × List Byte)) (marker rest : List Byte),
        (∀ e ∈ subs, SubfieldOk e) → ListEnd subs.length marker →
          processPad p ((subs.map (·.1) ++ marker ++ subs.flatMap (·.2) ++ rest).reverse ++ [fb1, fb2]) s =
            subs.foldl (fun u e => deliverSubfield p (e.1.extractLsb' 0 5) e.2 u) s) ∧
    (fb2.getLsbD 1 = false →
      ∀ bytes rest : List Byte, bytes.length = s.xpadPrevLen.toNat →
        let last := s.xpadPrevApp
        let next : BitVec 5 := if last = 2 then 3 else if last = 12 then 13 else if last = 14 then 15 else last
        processPad p ((bytes ++ rest).reverse ++ [fb1, fb2]) s =
          if bytes = [] then s else deliverSubfield p next bytes s)

/-- A data group in pieces (R242 to R244): while the bytes collected are fewer than the prefix declares, they stay in the
buffer and the group stays open; the piece that completes the group, whatever pieces came before it, closes the buffer and
hands the whole group on once; the bytes after it are dropped. -/
def Obligations.WholeGroupIsJudgedOnce : Prop :=
  ∀ (p : Params) (a b tail : List Byte) (s : State),
    let g := a ++ b
    let field1 := ((byteAt g 0).extractLsb' 0 4).toNat
    s.dgActive = true → s.dgBuf = a → b ≠ [] →
    g.length = (if (byteAt g 0).getLsbD 4 = false then 2 + (field1 + 1) + 2
      else if field1 = 2 then 2 + (((byteAt g 1).extractLsb' 0 4).toNat + 1) + 2 else 4) →
      feed p (b ++ tail) s = groupDone p g { s with dgActive := false, dgBuf := [] } ∧
      ∀ c d : List Byte, c ++ d = b → d ≠ [] →
        feed p c s = { s with dgBuf := a ++ c } ∧
        feed p (d ++ tail) (feed p c s) = groupDone p g { s with dgActive := false, dgBuf := [] }

/-- A label segment sent as a data group reaches the assembler with its fields (R110, R111, R113, R244 to R246). `first`
segments have number 0 and carry the character set; the others carry their number. -/
def Obligations.LabelGroupReachesTheAssembler : Prop :=
  ∀ (p : Params) (toggle first last : Bool) (high low : BitVec 4) (payload tail : List Byte) (s : State),
    s.dgActive = true → s.dgBuf = [] → 1 ≤ payload.length → payload.length ≤ 16 →
    (first = false → high.extractLsb' 0 3 ≠ 0) →
      let p0 : Byte := BitVec.ofBool toggle ++ BitVec.ofBool first ++ BitVec.ofBool last ++ BitVec.ofBool false ++
        BitVec.ofNat 4 (payload.length - 1)
      feed p (labelGroup p0 (high ++ low) payload ++ tail) s =
        labelSegment
          { toggle := toggle
            seg := if first then 0 else high.extractLsb' 0 3
            last := last
            charset := if first then high else 0
            payload := payload }
          { s with dgActive := false, dgBuf := [] }

/-- What a whole group does (R245, R246): a wrong CRC is counted when it is checked; a command group and a malformed segment
do nothing; every other group hands its segment to the assembler. That a wrong CRC does not stop the group when it is not
checked is the model's reading of R245 (assumption 9). -/
def Obligations.WholeGroupEffect : Prop :=
  ∀ (p : Params) (g : List Byte) (s : State),
    groupDone p g s =
      if crcOk g = false ∧ p.dlCrcCheck = true then
        { s with counters := { s.counters with dlCrcErr := satAdd32 s.counters.dlCrcErr 1 } }
      else if (byteAt g 0).getLsbD 4 = true then s
      else if (byteAt g 0).getLsbD 6 = true then
        labelSegment
          { toggle := (byteAt g 0).getLsbD 7
            seg := 0
            last := (byteAt g 0).getLsbD 5
            charset := (byteAt g 1).extractLsb' 4 4
            payload := (g.take (g.length - 2)).drop 2 } s
      else if (byteAt g 1).extractLsb' 4 3 = 0 then s
      else
        labelSegment
          { toggle := (byteAt g 0).getLsbD 7
            seg := (byteAt g 1).extractLsb' 4 3
            last := (byteAt g 0).getLsbD 5
            charset := 0
            payload := (g.take (g.length - 2)).drop 2 } s

/-! ## Dynamic Label -/

/-- The segments of a label, arriving in any order from an idle assembler, publish the label once, at the last of them
(R262 to R265, R270). -/
def Obligations.LabelAssemblesInAnyOrder : Prop :=
  ∀ (payloads : List (List Byte)) (order : List Nat) (toggle : Bool) (charset : BitVec 4) (s : State),
    LabelInv s → s.asm.active = false → 1 ≤ payloads.length → payloads.length ≤ 8 →
    order.Perm (List.range payloads.length) →
      let t := order.foldl (fun u k => labelSegment
        { toggle := toggle
          seg := BitVec.ofNat 3 k
          last := k + 1 == payloads.length
          charset := charset
          payload := payloads.getD k [] } u) s
      t.label = ⟨true, charset, payloads.flatten⟩ ∧
      t.output = s.output ++ [⟨0x02, [charset.setWidth 8, BitVec.ofNat 8 payloads.flatten.length] ++ payloads.flatten⟩] ∧
      t.asm = { LabelAsm.cleared with toggle := toggle }

/-- A segment with another toggle than the assembly in progress acts as on an idle assembler: the old segments are gone
(R261). -/
def Obligations.ToggleChangeDiscardsTheAssembly : Prop :=
  ∀ (g : SegmentInfo) (s : State), s.asm.active = true → g.toggle ≠ s.asm.toggle →
    labelSegment g s = labelSegment g { s with asm := LabelAsm.cleared }

/-- The completed-label register changes only when a LABEL event carries the new label, in an ADD_FRAME, or when CONFIG or
CHANNEL_RESET resets the session (R36, R264, R268). -/
def Obligations.LabelChangesOnlyWhenPublished : Prop :=
  ∀ (i : Instr) (s t : State), exec i s = .next t →
    t.label = s.label ∨
    (i.opcode = 0x03 ∧ t.label.valid = true ∧
      ∃ before after, t.output = s.output ++ before ++ labelEvent t.label.charset t.label.text :: after) ∨
    (i.opcode ∈ [(0x01 : Byte), 0x02] ∧ t.label = LabelReg.cleared)

/-! ## Telemetry -/

/-- No command lowers a counter, but a session reset, which sets every counter to 0 (R287, R288). -/
def Obligations.CountersNeverDecrease : Prop :=
  ∀ (i : Instr) (s t : State), exec i s = .next t →
    CountersLe s.counters t.counters ∨
    (i.opcode ∈ [(0x01 : Byte), 0x02] ∧ i.rsv = 0 ∧ t.counters = Counters.zero)
end

