-- ==== Sys2Proof/Laws/State.lean ====
section
/-! SUPPORT. One lemma for each field of State and each named update of it, true by unfolding, so that no later proof
unfolds a record update. -/

namespace Sys2Proof.Machine

@[simp] theorem emit_cfgBitrate (e : Event) (s : State) : (emit e s).cfgBitrate = s.cfgBitrate := rfl
@[simp] theorem emit_fatal (e : Event) (s : State) : (emit e s).fatal = s.fatal := rfl
@[simp] theorem emit_frames (e : Event) (s : State) : (emit e s).frames = s.frames := rfl
@[simp] theorem emit_syncState (e : Event) (s : State) : (emit e s).syncState = s.syncState := rfl
@[simp] theorem emit_failRun (e : Event) (s : State) : (emit e s).failRun = s.failRun := rfl
@[simp] theorem emit_lastGood (e : Event) (s : State) : (emit e s).lastGood = s.lastGood := rfl
@[simp] theorem emit_nominalAus (e : Event) (s : State) : (emit e s).nominalAus = s.nominalAus := rfl
@[simp] theorem emit_counters (e : Event) (s : State) : (emit e s).counters = s.counters := rfl
@[simp] theorem emit_srHist (e : Event) (s : State) : (emit e s).srHist = s.srHist := rfl
@[simp] theorem emit_successRate (e : Event) (s : State) : (emit e s).successRate = s.successRate := rfl
@[simp] theorem emit_xpadPrevLen (e : Event) (s : State) : (emit e s).xpadPrevLen = s.xpadPrevLen := rfl
@[simp] theorem emit_xpadPrevApp (e : Event) (s : State) : (emit e s).xpadPrevApp = s.xpadPrevApp := rfl
@[simp] theorem emit_shortPrevApp (e : Event) (s : State) : (emit e s).shortPrevApp = s.shortPrevApp := rfl
@[simp] theorem emit_dgActive (e : Event) (s : State) : (emit e s).dgActive = s.dgActive := rfl
@[simp] theorem emit_dgBuf (e : Event) (s : State) : (emit e s).dgBuf = s.dgBuf := rfl
@[simp] theorem emit_asm (e : Event) (s : State) : (emit e s).asm = s.asm := rfl
@[simp] theorem emit_label (e : Event) (s : State) : (emit e s).label = s.label := rfl
@[simp] theorem emit_input (e : Event) (s : State) : (emit e s).input = s.input := rfl
@[simp] theorem emit_output (e : Event) (s : State) : (emit e s).output = s.output ++ [e] := rfl
@[simp] theorem emit_accepted (e : Event) (s : State) : (emit e s).accepted = s.accepted := rfl
@[simp] theorem emit_acceptsNow (e : Event) (s : State) : (emit e s).acceptsNow = s.acceptsNow := rfl
@[simp] theorem emit_raised (e : Event) (s : State) : (emit e s).raised = s.raised := rfl

@[simp] theorem emitAll_cfgBitrate (es : List Event) (s : State) : (emitAll es s).cfgBitrate = s.cfgBitrate := rfl
@[simp] theorem emitAll_fatal (es : List Event) (s : State) : (emitAll es s).fatal = s.fatal := rfl
@[simp] theorem emitAll_frames (es : List Event) (s : State) : (emitAll es s).frames = s.frames := rfl
@[simp] theorem emitAll_syncState (es : List Event) (s : State) : (emitAll es s).syncState = s.syncState := rfl
@[simp] theorem emitAll_failRun (es : List Event) (s : State) : (emitAll es s).failRun = s.failRun := rfl
@[simp] theorem emitAll_lastGood (es : List Event) (s : State) : (emitAll es s).lastGood = s.lastGood := rfl
@[simp] theorem emitAll_nominalAus (es : List Event) (s : State) : (emitAll es s).nominalAus = s.nominalAus := rfl
@[simp] theorem emitAll_counters (es : List Event) (s : State) : (emitAll es s).counters = s.counters := rfl
@[simp] theorem emitAll_srHist (es : List Event) (s : State) : (emitAll es s).srHist = s.srHist := rfl
@[simp] theorem emitAll_successRate (es : List Event) (s : State) : (emitAll es s).successRate = s.successRate := rfl
@[simp] theorem emitAll_xpadPrevLen (es : List Event) (s : State) : (emitAll es s).xpadPrevLen = s.xpadPrevLen := rfl
@[simp] theorem emitAll_xpadPrevApp (es : List Event) (s : State) : (emitAll es s).xpadPrevApp = s.xpadPrevApp := rfl
@[simp] theorem emitAll_shortPrevApp (es : List Event) (s : State) : (emitAll es s).shortPrevApp = s.shortPrevApp := rfl
@[simp] theorem emitAll_dgActive (es : List Event) (s : State) : (emitAll es s).dgActive = s.dgActive := rfl
@[simp] theorem emitAll_dgBuf (es : List Event) (s : State) : (emitAll es s).dgBuf = s.dgBuf := rfl
@[simp] theorem emitAll_asm (es : List Event) (s : State) : (emitAll es s).asm = s.asm := rfl
@[simp] theorem emitAll_label (es : List Event) (s : State) : (emitAll es s).label = s.label := rfl
@[simp] theorem emitAll_input (es : List Event) (s : State) : (emitAll es s).input = s.input := rfl
@[simp] theorem emitAll_output (es : List Event) (s : State) : (emitAll es s).output = s.output ++ es := rfl
@[simp] theorem emitAll_accepted (es : List Event) (s : State) : (emitAll es s).accepted = s.accepted := rfl
@[simp] theorem emitAll_acceptsNow (es : List Event) (s : State) : (emitAll es s).acceptsNow = s.acceptsNow := rfl
@[simp] theorem emitAll_raised (es : List Event) (s : State) : (emitAll es s).raised = s.raised := rfl

@[simp] theorem raise_cfgBitrate (e : BlockError) (s : State) : (raise e s).cfgBitrate = s.cfgBitrate := rfl
@[simp] theorem raise_fatal (e : BlockError) (s : State) : (raise e s).fatal = s.fatal := rfl
@[simp] theorem raise_frames (e : BlockError) (s : State) : (raise e s).frames = s.frames := rfl
@[simp] theorem raise_syncState (e : BlockError) (s : State) : (raise e s).syncState = s.syncState := rfl
@[simp] theorem raise_failRun (e : BlockError) (s : State) : (raise e s).failRun = s.failRun := rfl
@[simp] theorem raise_lastGood (e : BlockError) (s : State) : (raise e s).lastGood = s.lastGood := rfl
@[simp] theorem raise_nominalAus (e : BlockError) (s : State) : (raise e s).nominalAus = s.nominalAus := rfl
@[simp] theorem raise_counters (e : BlockError) (s : State) : (raise e s).counters = s.counters := rfl
@[simp] theorem raise_srHist (e : BlockError) (s : State) : (raise e s).srHist = s.srHist := rfl
@[simp] theorem raise_successRate (e : BlockError) (s : State) : (raise e s).successRate = s.successRate := rfl
@[simp] theorem raise_xpadPrevLen (e : BlockError) (s : State) : (raise e s).xpadPrevLen = s.xpadPrevLen := rfl
@[simp] theorem raise_xpadPrevApp (e : BlockError) (s : State) : (raise e s).xpadPrevApp = s.xpadPrevApp := rfl
@[simp] theorem raise_shortPrevApp (e : BlockError) (s : State) : (raise e s).shortPrevApp = s.shortPrevApp := rfl
@[simp] theorem raise_dgActive (e : BlockError) (s : State) : (raise e s).dgActive = s.dgActive := rfl
@[simp] theorem raise_dgBuf (e : BlockError) (s : State) : (raise e s).dgBuf = s.dgBuf := rfl
@[simp] theorem raise_asm (e : BlockError) (s : State) : (raise e s).asm = s.asm := rfl
@[simp] theorem raise_label (e : BlockError) (s : State) : (raise e s).label = s.label := rfl
@[simp] theorem raise_input (e : BlockError) (s : State) : (raise e s).input = s.input := rfl
@[simp] theorem raise_output (e : BlockError) (s : State) : (raise e s).output = s.output := rfl
@[simp] theorem raise_accepted (e : BlockError) (s : State) : (raise e s).accepted = s.accepted := rfl
@[simp] theorem raise_acceptsNow (e : BlockError) (s : State) : (raise e s).acceptsNow = s.acceptsNow := rfl
@[simp] theorem raise_raised (e : BlockError) (s : State) : (raise e s).raised = s.raised ++ [e] := rfl

@[simp] theorem countFrameErr_cfgBitrate (s : State) : (countFrameErr s).cfgBitrate = s.cfgBitrate := rfl
@[simp] theorem countFrameErr_fatal (s : State) : (countFrameErr s).fatal = s.fatal := rfl
@[simp] theorem countFrameErr_frames (s : State) : (countFrameErr s).frames = s.frames := rfl
@[simp] theorem countFrameErr_syncState (s : State) : (countFrameErr s).syncState = s.syncState := rfl
@[simp] theorem countFrameErr_failRun (s : State) : (countFrameErr s).failRun = s.failRun := rfl
@[simp] theorem countFrameErr_lastGood (s : State) : (countFrameErr s).lastGood = s.lastGood := rfl
@[simp] theorem countFrameErr_nominalAus (s : State) : (countFrameErr s).nominalAus = s.nominalAus := rfl
@[simp] theorem countFrameErr_counters (s : State) : (countFrameErr s).counters = { s.counters with frameErr := satAdd32 s.counters.frameErr 1 } := rfl
@[simp] theorem countFrameErr_srHist (s : State) : (countFrameErr s).srHist = s.srHist := rfl
@[simp] theorem countFrameErr_successRate (s : State) : (countFrameErr s).successRate = s.successRate := rfl
@[simp] theorem countFrameErr_xpadPrevLen (s : State) : (countFrameErr s).xpadPrevLen = s.xpadPrevLen := rfl
@[simp] theorem countFrameErr_xpadPrevApp (s : State) : (countFrameErr s).xpadPrevApp = s.xpadPrevApp := rfl
@[simp] theorem countFrameErr_shortPrevApp (s : State) : (countFrameErr s).shortPrevApp = s.shortPrevApp := rfl
@[simp] theorem countFrameErr_dgActive (s : State) : (countFrameErr s).dgActive = s.dgActive := rfl
@[simp] theorem countFrameErr_dgBuf (s : State) : (countFrameErr s).dgBuf = s.dgBuf := rfl
@[simp] theorem countFrameErr_asm (s : State) : (countFrameErr s).asm = s.asm := rfl
@[simp] theorem countFrameErr_label (s : State) : (countFrameErr s).label = s.label := rfl
@[simp] theorem countFrameErr_input (s : State) : (countFrameErr s).input = s.input := rfl
@[simp] theorem countFrameErr_output (s : State) : (countFrameErr s).output = s.output := rfl
@[simp] theorem countFrameErr_accepted (s : State) : (countFrameErr s).accepted = s.accepted := rfl
@[simp] theorem countFrameErr_acceptsNow (s : State) : (countFrameErr s).acceptsNow = s.acceptsNow := rfl
@[simp] theorem countFrameErr_raised (s : State) : (countFrameErr s).raised = s.raised := rfl

@[simp] theorem countAus_cfgBitrate (ninv nfwd : Nat) (s : State) : (countAus ninv nfwd s).cfgBitrate = s.cfgBitrate := rfl
@[simp] theorem countAus_fatal (ninv nfwd : Nat) (s : State) : (countAus ninv nfwd s).fatal = s.fatal := rfl
@[simp] theorem countAus_frames (ninv nfwd : Nat) (s : State) : (countAus ninv nfwd s).frames = s.frames := rfl
@[simp] theorem countAus_syncState (ninv nfwd : Nat) (s : State) : (countAus ninv nfwd s).syncState = s.syncState := rfl
@[simp] theorem countAus_failRun (ninv nfwd : Nat) (s : State) : (countAus ninv nfwd s).failRun = s.failRun := rfl
@[simp] theorem countAus_lastGood (ninv nfwd : Nat) (s : State) : (countAus ninv nfwd s).lastGood = s.lastGood := rfl
@[simp] theorem countAus_nominalAus (ninv nfwd : Nat) (s : State) : (countAus ninv nfwd s).nominalAus = s.nominalAus := rfl
@[simp] theorem countAus_counters (ninv nfwd : Nat) (s : State) : (countAus ninv nfwd s).counters = { s.counters with auErr := satAdd32 s.counters.auErr ninv, auFwd := satAdd32 s.counters.auFwd nfwd } := rfl
@[simp] theorem countAus_srHist (ninv nfwd : Nat) (s : State) : (countAus ninv nfwd s).srHist = s.srHist := rfl
@[simp] theorem countAus_successRate (ninv nfwd : Nat) (s : State) : (countAus ninv nfwd s).successRate = s.successRate := rfl
@[simp] theorem countAus_xpadPrevLen (ninv nfwd : Nat) (s : State) : (countAus ninv nfwd s).xpadPrevLen = s.xpadPrevLen := rfl
@[simp] theorem countAus_xpadPrevApp (ninv nfwd : Nat) (s : State) : (countAus ninv nfwd s).xpadPrevApp = s.xpadPrevApp := rfl
@[simp] theorem countAus_shortPrevApp (ninv nfwd : Nat) (s : State) : (countAus ninv nfwd s).shortPrevApp = s.shortPrevApp := rfl
@[simp] theorem countAus_dgActive (ninv nfwd : Nat) (s : State) : (countAus ninv nfwd s).dgActive = s.dgActive := rfl
@[simp] theorem countAus_dgBuf (ninv nfwd : Nat) (s : State) : (countAus ninv nfwd s).dgBuf = s.dgBuf := rfl
@[simp] theorem countAus_asm (ninv nfwd : Nat) (s : State) : (countAus ninv nfwd s).asm = s.asm := rfl
@[simp] theorem countAus_label (ninv nfwd : Nat) (s : State) : (countAus ninv nfwd s).label = s.label := rfl
@[simp] theorem countAus_input (ninv nfwd : Nat) (s : State) : (countAus ninv nfwd s).input = s.input := rfl
@[simp] theorem countAus_output (ninv nfwd : Nat) (s : State) : (countAus ninv nfwd s).output = s.output := rfl
@[simp] theorem countAus_accepted (ninv nfwd : Nat) (s : State) : (countAus ninv nfwd s).accepted = s.accepted := rfl
@[simp] theorem countAus_acceptsNow (ninv nfwd : Nat) (s : State) : (countAus ninv nfwd s).acceptsNow = s.acceptsNow := rfl
@[simp] theorem countAus_raised (ninv nfwd : Nat) (s : State) : (countAus ninv nfwd s).raised = s.raised := rfl

@[simp] theorem countRs_cfgBitrate (corr nunc : Nat) (s : State) : (countRs corr nunc s).cfgBitrate = s.cfgBitrate := rfl
@[simp] theorem countRs_fatal (corr nunc : Nat) (s : State) : (countRs corr nunc s).fatal = s.fatal := rfl
@[simp] theorem countRs_frames (corr nunc : Nat) (s : State) : (countRs corr nunc s).frames = s.frames := rfl
@[simp] theorem countRs_syncState (corr nunc : Nat) (s : State) : (countRs corr nunc s).syncState = s.syncState := rfl
@[simp] theorem countRs_failRun (corr nunc : Nat) (s : State) : (countRs corr nunc s).failRun = s.failRun := rfl
@[simp] theorem countRs_lastGood (corr nunc : Nat) (s : State) : (countRs corr nunc s).lastGood = s.lastGood := rfl
@[simp] theorem countRs_nominalAus (corr nunc : Nat) (s : State) : (countRs corr nunc s).nominalAus = s.nominalAus := rfl
@[simp] theorem countRs_counters (corr nunc : Nat) (s : State) : (countRs corr nunc s).counters = { s.counters with rsCorr := satAdd32 s.counters.rsCorr corr, rsUncorr := satAdd32 s.counters.rsUncorr nunc } := rfl
@[simp] theorem countRs_srHist (corr nunc : Nat) (s : State) : (countRs corr nunc s).srHist = s.srHist := rfl
@[simp] theorem countRs_successRate (corr nunc : Nat) (s : State) : (countRs corr nunc s).successRate = s.successRate := rfl
@[simp] theorem countRs_xpadPrevLen (corr nunc : Nat) (s : State) : (countRs corr nunc s).xpadPrevLen = s.xpadPrevLen := rfl
@[simp] theorem countRs_xpadPrevApp (corr nunc : Nat) (s : State) : (countRs corr nunc s).xpadPrevApp = s.xpadPrevApp := rfl
@[simp] theorem countRs_shortPrevApp (corr nunc : Nat) (s : State) : (countRs corr nunc s).shortPrevApp = s.shortPrevApp := rfl
@[simp] theorem countRs_dgActive (corr nunc : Nat) (s : State) : (countRs corr nunc s).dgActive = s.dgActive := rfl
@[simp] theorem countRs_dgBuf (corr nunc : Nat) (s : State) : (countRs corr nunc s).dgBuf = s.dgBuf := rfl
@[simp] theorem countRs_asm (corr nunc : Nat) (s : State) : (countRs corr nunc s).asm = s.asm := rfl
@[simp] theorem countRs_label (corr nunc : Nat) (s : State) : (countRs corr nunc s).label = s.label := rfl
@[simp] theorem countRs_input (corr nunc : Nat) (s : State) : (countRs corr nunc s).input = s.input := rfl
@[simp] theorem countRs_output (corr nunc : Nat) (s : State) : (countRs corr nunc s).output = s.output := rfl
@[simp] theorem countRs_accepted (corr nunc : Nat) (s : State) : (countRs corr nunc s).accepted = s.accepted := rfl
@[simp] theorem countRs_acceptsNow (corr nunc : Nat) (s : State) : (countRs corr nunc s).acceptsNow = s.acceptsNow := rfl
@[simp] theorem countRs_raised (corr nunc : Nat) (s : State) : (countRs corr nunc s).raised = s.raised := rfl

@[simp] theorem countPadLenErr_cfgBitrate (s : State) : (countPadLenErr s).cfgBitrate = s.cfgBitrate := rfl
@[simp] theorem countPadLenErr_fatal (s : State) : (countPadLenErr s).fatal = s.fatal := rfl
@[simp] theorem countPadLenErr_frames (s : State) : (countPadLenErr s).frames = s.frames := rfl
@[simp] theorem countPadLenErr_syncState (s : State) : (countPadLenErr s).syncState = s.syncState := rfl
@[simp] theorem countPadLenErr_failRun (s : State) : (countPadLenErr s).failRun = s.failRun := rfl
@[simp] theorem countPadLenErr_lastGood (s : State) : (countPadLenErr s).lastGood = s.lastGood := rfl
@[simp] theorem countPadLenErr_nominalAus (s : State) : (countPadLenErr s).nominalAus = s.nominalAus := rfl
@[simp] theorem countPadLenErr_counters (s : State) : (countPadLenErr s).counters = { s.counters with padLenErr := satAdd32 s.counters.padLenErr 1 } := rfl
@[simp] theorem countPadLenErr_srHist (s : State) : (countPadLenErr s).srHist = s.srHist := rfl
@[simp] theorem countPadLenErr_successRate (s : State) : (countPadLenErr s).successRate = s.successRate := rfl
@[simp] theorem countPadLenErr_xpadPrevLen (s : State) : (countPadLenErr s).xpadPrevLen = s.xpadPrevLen := rfl
@[simp] theorem countPadLenErr_xpadPrevApp (s : State) : (countPadLenErr s).xpadPrevApp = s.xpadPrevApp := rfl
@[simp] theorem countPadLenErr_shortPrevApp (s : State) : (countPadLenErr s).shortPrevApp = s.shortPrevApp := rfl
@[simp] theorem countPadLenErr_dgActive (s : State) : (countPadLenErr s).dgActive = s.dgActive := rfl
@[simp] theorem countPadLenErr_dgBuf (s : State) : (countPadLenErr s).dgBuf = s.dgBuf := rfl
@[simp] theorem countPadLenErr_asm (s : State) : (countPadLenErr s).asm = s.asm := rfl
@[simp] theorem countPadLenErr_label (s : State) : (countPadLenErr s).label = s.label := rfl
@[simp] theorem countPadLenErr_input (s : State) : (countPadLenErr s).input = s.input := rfl
@[simp] theorem countPadLenErr_output (s : State) : (countPadLenErr s).output = s.output := rfl
@[simp] theorem countPadLenErr_accepted (s : State) : (countPadLenErr s).accepted = s.accepted := rfl
@[simp] theorem countPadLenErr_acceptsNow (s : State) : (countPadLenErr s).acceptsNow = s.acceptsNow := rfl
@[simp] theorem countPadLenErr_raised (s : State) : (countPadLenErr s).raised = s.raised := rfl

@[simp] theorem countDlCrcErr_cfgBitrate (s : State) : (countDlCrcErr s).cfgBitrate = s.cfgBitrate := rfl
@[simp] theorem countDlCrcErr_fatal (s : State) : (countDlCrcErr s).fatal = s.fatal := rfl
@[simp] theorem countDlCrcErr_frames (s : State) : (countDlCrcErr s).frames = s.frames := rfl
@[simp] theorem countDlCrcErr_syncState (s : State) : (countDlCrcErr s).syncState = s.syncState := rfl
@[simp] theorem countDlCrcErr_failRun (s : State) : (countDlCrcErr s).failRun = s.failRun := rfl
@[simp] theorem countDlCrcErr_lastGood (s : State) : (countDlCrcErr s).lastGood = s.lastGood := rfl
@[simp] theorem countDlCrcErr_nominalAus (s : State) : (countDlCrcErr s).nominalAus = s.nominalAus := rfl
@[simp] theorem countDlCrcErr_counters (s : State) : (countDlCrcErr s).counters = { s.counters with dlCrcErr := satAdd32 s.counters.dlCrcErr 1 } := rfl
@[simp] theorem countDlCrcErr_srHist (s : State) : (countDlCrcErr s).srHist = s.srHist := rfl
@[simp] theorem countDlCrcErr_successRate (s : State) : (countDlCrcErr s).successRate = s.successRate := rfl
@[simp] theorem countDlCrcErr_xpadPrevLen (s : State) : (countDlCrcErr s).xpadPrevLen = s.xpadPrevLen := rfl
@[simp] theorem countDlCrcErr_xpadPrevApp (s : State) : (countDlCrcErr s).xpadPrevApp = s.xpadPrevApp := rfl
@[simp] theorem countDlCrcErr_shortPrevApp (s : State) : (countDlCrcErr s).shortPrevApp = s.shortPrevApp := rfl
@[simp] theorem countDlCrcErr_dgActive (s : State) : (countDlCrcErr s).dgActive = s.dgActive := rfl
@[simp] theorem countDlCrcErr_dgBuf (s : State) : (countDlCrcErr s).dgBuf = s.dgBuf := rfl
@[simp] theorem countDlCrcErr_asm (s : State) : (countDlCrcErr s).asm = s.asm := rfl
@[simp] theorem countDlCrcErr_label (s : State) : (countDlCrcErr s).label = s.label := rfl
@[simp] theorem countDlCrcErr_input (s : State) : (countDlCrcErr s).input = s.input := rfl
@[simp] theorem countDlCrcErr_output (s : State) : (countDlCrcErr s).output = s.output := rfl
@[simp] theorem countDlCrcErr_accepted (s : State) : (countDlCrcErr s).accepted = s.accepted := rfl
@[simp] theorem countDlCrcErr_acceptsNow (s : State) : (countDlCrcErr s).acceptsNow = s.acceptsNow := rfl
@[simp] theorem countDlCrcErr_raised (s : State) : (countDlCrcErr s).raised = s.raised := rfl

@[simp] theorem countSuperframe_cfgBitrate (s : State) : (countSuperframe s).cfgBitrate = s.cfgBitrate := rfl
@[simp] theorem countSuperframe_fatal (s : State) : (countSuperframe s).fatal = s.fatal := rfl
@[simp] theorem countSuperframe_frames (s : State) : (countSuperframe s).frames = s.frames := rfl
@[simp] theorem countSuperframe_syncState (s : State) : (countSuperframe s).syncState = s.syncState := rfl
@[simp] theorem countSuperframe_failRun (s : State) : (countSuperframe s).failRun = s.failRun := rfl
@[simp] theorem countSuperframe_lastGood (s : State) : (countSuperframe s).lastGood = s.lastGood := rfl
@[simp] theorem countSuperframe_nominalAus (s : State) : (countSuperframe s).nominalAus = s.nominalAus := rfl
@[simp] theorem countSuperframe_counters (s : State) : (countSuperframe s).counters = { s.counters with sfCount := satAdd32 s.counters.sfCount 1 } := rfl
@[simp] theorem countSuperframe_srHist (s : State) : (countSuperframe s).srHist = s.srHist := rfl
@[simp] theorem countSuperframe_successRate (s : State) : (countSuperframe s).successRate = s.successRate := rfl
@[simp] theorem countSuperframe_xpadPrevLen (s : State) : (countSuperframe s).xpadPrevLen = s.xpadPrevLen := rfl
@[simp] theorem countSuperframe_xpadPrevApp (s : State) : (countSuperframe s).xpadPrevApp = s.xpadPrevApp := rfl
@[simp] theorem countSuperframe_shortPrevApp (s : State) : (countSuperframe s).shortPrevApp = s.shortPrevApp := rfl
@[simp] theorem countSuperframe_dgActive (s : State) : (countSuperframe s).dgActive = s.dgActive := rfl
@[simp] theorem countSuperframe_dgBuf (s : State) : (countSuperframe s).dgBuf = s.dgBuf := rfl
@[simp] theorem countSuperframe_asm (s : State) : (countSuperframe s).asm = s.asm := rfl
@[simp] theorem countSuperframe_label (s : State) : (countSuperframe s).label = s.label := rfl
@[simp] theorem countSuperframe_input (s : State) : (countSuperframe s).input = s.input := rfl
@[simp] theorem countSuperframe_output (s : State) : (countSuperframe s).output = s.output := rfl
@[simp] theorem countSuperframe_accepted (s : State) : (countSuperframe s).accepted = s.accepted := rfl
@[simp] theorem countSuperframe_acceptsNow (s : State) : (countSuperframe s).acceptsNow = s.acceptsNow := rfl
@[simp] theorem countSuperframe_raised (s : State) : (countSuperframe s).raised = s.raised := rfl

@[simp] theorem setFrames_cfgBitrate (fs : List (List Byte)) (s : State) : (setFrames fs s).cfgBitrate = s.cfgBitrate := rfl
@[simp] theorem setFrames_fatal (fs : List (List Byte)) (s : State) : (setFrames fs s).fatal = s.fatal := rfl
@[simp] theorem setFrames_frames (fs : List (List Byte)) (s : State) : (setFrames fs s).frames = fs := rfl
@[simp] theorem setFrames_syncState (fs : List (List Byte)) (s : State) : (setFrames fs s).syncState = s.syncState := rfl
@[simp] theorem setFrames_failRun (fs : List (List Byte)) (s : State) : (setFrames fs s).failRun = s.failRun := rfl
@[simp] theorem setFrames_lastGood (fs : List (List Byte)) (s : State) : (setFrames fs s).lastGood = s.lastGood := rfl
@[simp] theorem setFrames_nominalAus (fs : List (List Byte)) (s : State) : (setFrames fs s).nominalAus = s.nominalAus := rfl
@[simp] theorem setFrames_counters (fs : List (List Byte)) (s : State) : (setFrames fs s).counters = s.counters := rfl
@[simp] theorem setFrames_srHist (fs : List (List Byte)) (s : State) : (setFrames fs s).srHist = s.srHist := rfl
@[simp] theorem setFrames_successRate (fs : List (List Byte)) (s : State) : (setFrames fs s).successRate = s.successRate := rfl
@[simp] theorem setFrames_xpadPrevLen (fs : List (List Byte)) (s : State) : (setFrames fs s).xpadPrevLen = s.xpadPrevLen := rfl
@[simp] theorem setFrames_xpadPrevApp (fs : List (List Byte)) (s : State) : (setFrames fs s).xpadPrevApp = s.xpadPrevApp := rfl
@[simp] theorem setFrames_shortPrevApp (fs : List (List Byte)) (s : State) : (setFrames fs s).shortPrevApp = s.shortPrevApp := rfl
@[simp] theorem setFrames_dgActive (fs : List (List Byte)) (s : State) : (setFrames fs s).dgActive = s.dgActive := rfl
@[simp] theorem setFrames_dgBuf (fs : List (List Byte)) (s : State) : (setFrames fs s).dgBuf = s.dgBuf := rfl
@[simp] theorem setFrames_asm (fs : List (List Byte)) (s : State) : (setFrames fs s).asm = s.asm := rfl
@[simp] theorem setFrames_label (fs : List (List Byte)) (s : State) : (setFrames fs s).label = s.label := rfl
@[simp] theorem setFrames_input (fs : List (List Byte)) (s : State) : (setFrames fs s).input = s.input := rfl
@[simp] theorem setFrames_output (fs : List (List Byte)) (s : State) : (setFrames fs s).output = s.output := rfl
@[simp] theorem setFrames_accepted (fs : List (List Byte)) (s : State) : (setFrames fs s).accepted = s.accepted := rfl
@[simp] theorem setFrames_acceptsNow (fs : List (List Byte)) (s : State) : (setFrames fs s).acceptsNow = s.acceptsNow := rfl
@[simp] theorem setFrames_raised (fs : List (List Byte)) (s : State) : (setFrames fs s).raised = s.raised := rfl

@[simp] theorem setConfig_cfgBitrate (b : Half) (f : Bool) (s : State) : (setConfig b f s).cfgBitrate = b := rfl
@[simp] theorem setConfig_fatal (b : Half) (f : Bool) (s : State) : (setConfig b f s).fatal = f := rfl
@[simp] theorem setConfig_frames (b : Half) (f : Bool) (s : State) : (setConfig b f s).frames = s.frames := rfl
@[simp] theorem setConfig_syncState (b : Half) (f : Bool) (s : State) : (setConfig b f s).syncState = s.syncState := rfl
@[simp] theorem setConfig_failRun (b : Half) (f : Bool) (s : State) : (setConfig b f s).failRun = s.failRun := rfl
@[simp] theorem setConfig_lastGood (b : Half) (f : Bool) (s : State) : (setConfig b f s).lastGood = s.lastGood := rfl
@[simp] theorem setConfig_nominalAus (b : Half) (f : Bool) (s : State) : (setConfig b f s).nominalAus = s.nominalAus := rfl
@[simp] theorem setConfig_counters (b : Half) (f : Bool) (s : State) : (setConfig b f s).counters = s.counters := rfl
@[simp] theorem setConfig_srHist (b : Half) (f : Bool) (s : State) : (setConfig b f s).srHist = s.srHist := rfl
@[simp] theorem setConfig_successRate (b : Half) (f : Bool) (s : State) : (setConfig b f s).successRate = s.successRate := rfl
@[simp] theorem setConfig_xpadPrevLen (b : Half) (f : Bool) (s : State) : (setConfig b f s).xpadPrevLen = s.xpadPrevLen := rfl
@[simp] theorem setConfig_xpadPrevApp (b : Half) (f : Bool) (s : State) : (setConfig b f s).xpadPrevApp = s.xpadPrevApp := rfl
@[simp] theorem setConfig_shortPrevApp (b : Half) (f : Bool) (s : State) : (setConfig b f s).shortPrevApp = s.shortPrevApp := rfl
@[simp] theorem setConfig_dgActive (b : Half) (f : Bool) (s : State) : (setConfig b f s).dgActive = s.dgActive := rfl
@[simp] theorem setConfig_dgBuf (b : Half) (f : Bool) (s : State) : (setConfig b f s).dgBuf = s.dgBuf := rfl
@[simp] theorem setConfig_asm (b : Half) (f : Bool) (s : State) : (setConfig b f s).asm = s.asm := rfl
@[simp] theorem setConfig_label (b : Half) (f : Bool) (s : State) : (setConfig b f s).label = s.label := rfl
@[simp] theorem setConfig_input (b : Half) (f : Bool) (s : State) : (setConfig b f s).input = s.input := rfl
@[simp] theorem setConfig_output (b : Half) (f : Bool) (s : State) : (setConfig b f s).output = s.output := rfl
@[simp] theorem setConfig_accepted (b : Half) (f : Bool) (s : State) : (setConfig b f s).accepted = s.accepted := rfl
@[simp] theorem setConfig_acceptsNow (b : Half) (f : Bool) (s : State) : (setConfig b f s).acceptsNow = s.acceptsNow := rfl
@[simp] theorem setConfig_raised (b : Half) (f : Bool) (s : State) : (setConfig b f s).raised = s.raised := rfl

@[simp] theorem commandError_cfgBitrate (op code : Byte) (s : State) : (commandError op code s).cfgBitrate = s.cfgBitrate := rfl
@[simp] theorem commandError_fatal (op code : Byte) (s : State) : (commandError op code s).fatal = s.fatal := rfl
@[simp] theorem commandError_frames (op code : Byte) (s : State) : (commandError op code s).frames = s.frames := rfl
@[simp] theorem commandError_syncState (op code : Byte) (s : State) : (commandError op code s).syncState = s.syncState := rfl
@[simp] theorem commandError_failRun (op code : Byte) (s : State) : (commandError op code s).failRun = s.failRun := rfl
@[simp] theorem commandError_lastGood (op code : Byte) (s : State) : (commandError op code s).lastGood = s.lastGood := rfl
@[simp] theorem commandError_nominalAus (op code : Byte) (s : State) : (commandError op code s).nominalAus = s.nominalAus := rfl
@[simp] theorem commandError_counters (op code : Byte) (s : State) : (commandError op code s).counters = s.counters := rfl
@[simp] theorem commandError_srHist (op code : Byte) (s : State) : (commandError op code s).srHist = s.srHist := rfl
@[simp] theorem commandError_successRate (op code : Byte) (s : State) : (commandError op code s).successRate = s.successRate := rfl
@[simp] theorem commandError_xpadPrevLen (op code : Byte) (s : State) : (commandError op code s).xpadPrevLen = s.xpadPrevLen := rfl
@[simp] theorem commandError_xpadPrevApp (op code : Byte) (s : State) : (commandError op code s).xpadPrevApp = s.xpadPrevApp := rfl
@[simp] theorem commandError_shortPrevApp (op code : Byte) (s : State) : (commandError op code s).shortPrevApp = s.shortPrevApp := rfl
@[simp] theorem commandError_dgActive (op code : Byte) (s : State) : (commandError op code s).dgActive = s.dgActive := rfl
@[simp] theorem commandError_dgBuf (op code : Byte) (s : State) : (commandError op code s).dgBuf = s.dgBuf := rfl
@[simp] theorem commandError_asm (op code : Byte) (s : State) : (commandError op code s).asm = s.asm := rfl
@[simp] theorem commandError_label (op code : Byte) (s : State) : (commandError op code s).label = s.label := rfl
@[simp] theorem commandError_input (op code : Byte) (s : State) : (commandError op code s).input = s.input := rfl
@[simp] theorem commandError_output (op code : Byte) (s : State) : (commandError op code s).output = s.output ++ [cmdErrorEvent op code] := rfl
@[simp] theorem commandError_accepted (op code : Byte) (s : State) : (commandError op code s).accepted = s.accepted := rfl
@[simp] theorem commandError_acceptsNow (op code : Byte) (s : State) : (commandError op code s).acceptsNow = s.acceptsNow := rfl
@[simp] theorem commandError_raised (op code : Byte) (s : State) : (commandError op code s).raised = s.raised ++ [.command op code] := rfl

@[simp] theorem setGroup_cfgBitrate (active : Bool) (buf : List Byte) (s : State) : (setGroup active buf s).cfgBitrate = s.cfgBitrate := rfl
@[simp] theorem setGroup_fatal (active : Bool) (buf : List Byte) (s : State) : (setGroup active buf s).fatal = s.fatal := rfl
@[simp] theorem setGroup_frames (active : Bool) (buf : List Byte) (s : State) : (setGroup active buf s).frames = s.frames := rfl
@[simp] theorem setGroup_syncState (active : Bool) (buf : List Byte) (s : State) : (setGroup active buf s).syncState = s.syncState := rfl
@[simp] theorem setGroup_failRun (active : Bool) (buf : List Byte) (s : State) : (setGroup active buf s).failRun = s.failRun := rfl
@[simp] theorem setGroup_lastGood (active : Bool) (buf : List Byte) (s : State) : (setGroup active buf s).lastGood = s.lastGood := rfl
@[simp] theorem setGroup_nominalAus (active : Bool) (buf : List Byte) (s : State) : (setGroup active buf s).nominalAus = s.nominalAus := rfl
@[simp] theorem setGroup_counters (active : Bool) (buf : List Byte) (s : State) : (setGroup active buf s).counters = s.counters := rfl
@[simp] theorem setGroup_srHist (active : Bool) (buf : List Byte) (s : State) : (setGroup active buf s).srHist = s.srHist := rfl
@[simp] theorem setGroup_successRate (active : Bool) (buf : List Byte) (s : State) : (setGroup active buf s).successRate = s.successRate := rfl
@[simp] theorem setGroup_xpadPrevLen (active : Bool) (buf : List Byte) (s : State) : (setGroup active buf s).xpadPrevLen = s.xpadPrevLen := rfl
@[simp] theorem setGroup_xpadPrevApp (active : Bool) (buf : List Byte) (s : State) : (setGroup active buf s).xpadPrevApp = s.xpadPrevApp := rfl
@[simp] theorem setGroup_shortPrevApp (active : Bool) (buf : List Byte) (s : State) : (setGroup active buf s).shortPrevApp = s.shortPrevApp := rfl
@[simp] theorem setGroup_dgActive (active : Bool) (buf : List Byte) (s : State) : (setGroup active buf s).dgActive = active := rfl
@[simp] theorem setGroup_dgBuf (active : Bool) (buf : List Byte) (s : State) : (setGroup active buf s).dgBuf = buf := rfl
@[simp] theorem setGroup_asm (active : Bool) (buf : List Byte) (s : State) : (setGroup active buf s).asm = s.asm := rfl
@[simp] theorem setGroup_label (active : Bool) (buf : List Byte) (s : State) : (setGroup active buf s).label = s.label := rfl
@[simp] theorem setGroup_input (active : Bool) (buf : List Byte) (s : State) : (setGroup active buf s).input = s.input := rfl
@[simp] theorem setGroup_output (active : Bool) (buf : List Byte) (s : State) : (setGroup active buf s).output = s.output := rfl
@[simp] theorem setGroup_accepted (active : Bool) (buf : List Byte) (s : State) : (setGroup active buf s).accepted = s.accepted := rfl
@[simp] theorem setGroup_acceptsNow (active : Bool) (buf : List Byte) (s : State) : (setGroup active buf s).acceptsNow = s.acceptsNow := rfl
@[simp] theorem setGroup_raised (active : Bool) (buf : List Byte) (s : State) : (setGroup active buf s).raised = s.raised := rfl

@[simp] theorem setXpadPrev_cfgBitrate (len : Nat) (app : BitVec 5) (s : State) : (setXpadPrev len app s).cfgBitrate = s.cfgBitrate := rfl
@[simp] theorem setXpadPrev_fatal (len : Nat) (app : BitVec 5) (s : State) : (setXpadPrev len app s).fatal = s.fatal := rfl
@[simp] theorem setXpadPrev_frames (len : Nat) (app : BitVec 5) (s : State) : (setXpadPrev len app s).frames = s.frames := rfl
@[simp] theorem setXpadPrev_syncState (len : Nat) (app : BitVec 5) (s : State) : (setXpadPrev len app s).syncState = s.syncState := rfl
@[simp] theorem setXpadPrev_failRun (len : Nat) (app : BitVec 5) (s : State) : (setXpadPrev len app s).failRun = s.failRun := rfl
@[simp] theorem setXpadPrev_lastGood (len : Nat) (app : BitVec 5) (s : State) : (setXpadPrev len app s).lastGood = s.lastGood := rfl
@[simp] theorem setXpadPrev_nominalAus (len : Nat) (app : BitVec 5) (s : State) : (setXpadPrev len app s).nominalAus = s.nominalAus := rfl
@[simp] theorem setXpadPrev_counters (len : Nat) (app : BitVec 5) (s : State) : (setXpadPrev len app s).counters = s.counters := rfl
@[simp] theorem setXpadPrev_srHist (len : Nat) (app : BitVec 5) (s : State) : (setXpadPrev len app s).srHist = s.srHist := rfl
@[simp] theorem setXpadPrev_successRate (len : Nat) (app : BitVec 5) (s : State) : (setXpadPrev len app s).successRate = s.successRate := rfl
@[simp] theorem setXpadPrev_xpadPrevLen (len : Nat) (app : BitVec 5) (s : State) : (setXpadPrev len app s).xpadPrevLen = BitVec.ofNat 6 len := rfl
@[simp] theorem setXpadPrev_xpadPrevApp (len : Nat) (app : BitVec 5) (s : State) : (setXpadPrev len app s).xpadPrevApp = app := rfl
@[simp] theorem setXpadPrev_shortPrevApp (len : Nat) (app : BitVec 5) (s : State) : (setXpadPrev len app s).shortPrevApp = s.shortPrevApp := rfl
@[simp] theorem setXpadPrev_dgActive (len : Nat) (app : BitVec 5) (s : State) : (setXpadPrev len app s).dgActive = s.dgActive := rfl
@[simp] theorem setXpadPrev_dgBuf (len : Nat) (app : BitVec 5) (s : State) : (setXpadPrev len app s).dgBuf = s.dgBuf := rfl
@[simp] theorem setXpadPrev_asm (len : Nat) (app : BitVec 5) (s : State) : (setXpadPrev len app s).asm = s.asm := rfl
@[simp] theorem setXpadPrev_label (len : Nat) (app : BitVec 5) (s : State) : (setXpadPrev len app s).label = s.label := rfl
@[simp] theorem setXpadPrev_input (len : Nat) (app : BitVec 5) (s : State) : (setXpadPrev len app s).input = s.input := rfl
@[simp] theorem setXpadPrev_output (len : Nat) (app : BitVec 5) (s : State) : (setXpadPrev len app s).output = s.output := rfl
@[simp] theorem setXpadPrev_accepted (len : Nat) (app : BitVec 5) (s : State) : (setXpadPrev len app s).accepted = s.accepted := rfl
@[simp] theorem setXpadPrev_acceptsNow (len : Nat) (app : BitVec 5) (s : State) : (setXpadPrev len app s).acceptsNow = s.acceptsNow := rfl
@[simp] theorem setXpadPrev_raised (len : Nat) (app : BitVec 5) (s : State) : (setXpadPrev len app s).raised = s.raised := rfl

@[simp] theorem padLengthError_cfgBitrate (needed avail : Nat) (s : State) : (padLengthError needed avail s).cfgBitrate = s.cfgBitrate := rfl
@[simp] theorem padLengthError_fatal (needed avail : Nat) (s : State) : (padLengthError needed avail s).fatal = s.fatal := rfl
@[simp] theorem padLengthError_frames (needed avail : Nat) (s : State) : (padLengthError needed avail s).frames = s.frames := rfl
@[simp] theorem padLengthError_syncState (needed avail : Nat) (s : State) : (padLengthError needed avail s).syncState = s.syncState := rfl
@[simp] theorem padLengthError_failRun (needed avail : Nat) (s : State) : (padLengthError needed avail s).failRun = s.failRun := rfl
@[simp] theorem padLengthError_lastGood (needed avail : Nat) (s : State) : (padLengthError needed avail s).lastGood = s.lastGood := rfl
@[simp] theorem padLengthError_nominalAus (needed avail : Nat) (s : State) : (padLengthError needed avail s).nominalAus = s.nominalAus := rfl
@[simp] theorem padLengthError_counters (needed avail : Nat) (s : State) : (padLengthError needed avail s).counters = { s.counters with padLenErr := satAdd32 s.counters.padLenErr 1 } := rfl
@[simp] theorem padLengthError_srHist (needed avail : Nat) (s : State) : (padLengthError needed avail s).srHist = s.srHist := rfl
@[simp] theorem padLengthError_successRate (needed avail : Nat) (s : State) : (padLengthError needed avail s).successRate = s.successRate := rfl
@[simp] theorem padLengthError_xpadPrevLen (needed avail : Nat) (s : State) : (padLengthError needed avail s).xpadPrevLen = s.xpadPrevLen := rfl
@[simp] theorem padLengthError_xpadPrevApp (needed avail : Nat) (s : State) : (padLengthError needed avail s).xpadPrevApp = s.xpadPrevApp := rfl
@[simp] theorem padLengthError_shortPrevApp (needed avail : Nat) (s : State) : (padLengthError needed avail s).shortPrevApp = s.shortPrevApp := rfl
@[simp] theorem padLengthError_dgActive (needed avail : Nat) (s : State) : (padLengthError needed avail s).dgActive = s.dgActive := rfl
@[simp] theorem padLengthError_dgBuf (needed avail : Nat) (s : State) : (padLengthError needed avail s).dgBuf = s.dgBuf := rfl
@[simp] theorem padLengthError_asm (needed avail : Nat) (s : State) : (padLengthError needed avail s).asm = s.asm := rfl
@[simp] theorem padLengthError_label (needed avail : Nat) (s : State) : (padLengthError needed avail s).label = s.label := rfl
@[simp] theorem padLengthError_input (needed avail : Nat) (s : State) : (padLengthError needed avail s).input = s.input := rfl
@[simp] theorem padLengthError_output (needed avail : Nat) (s : State) : (padLengthError needed avail s).output = s.output ++ [padLengthErrorEvent needed avail] := rfl
@[simp] theorem padLengthError_accepted (needed avail : Nat) (s : State) : (padLengthError needed avail s).accepted = s.accepted := rfl
@[simp] theorem padLengthError_acceptsNow (needed avail : Nat) (s : State) : (padLengthError needed avail s).acceptsNow = s.acceptsNow := rfl
@[simp] theorem padLengthError_raised (needed avail : Nat) (s : State) : (padLengthError needed avail s).raised = s.raised ++ [.padLength needed avail] := rfl

@[simp] theorem framingError_cfgBitrate (len : Nat) (s : State) : (framingError len s).cfgBitrate = s.cfgBitrate := rfl
@[simp] theorem framingError_fatal (len : Nat) (s : State) : (framingError len s).fatal = s.fatal := rfl
@[simp] theorem framingError_frames (len : Nat) (s : State) : (framingError len s).frames = s.frames := rfl
@[simp] theorem framingError_syncState (len : Nat) (s : State) : (framingError len s).syncState = s.syncState := rfl
@[simp] theorem framingError_failRun (len : Nat) (s : State) : (framingError len s).failRun = s.failRun := rfl
@[simp] theorem framingError_lastGood (len : Nat) (s : State) : (framingError len s).lastGood = s.lastGood := rfl
@[simp] theorem framingError_nominalAus (len : Nat) (s : State) : (framingError len s).nominalAus = s.nominalAus := rfl
@[simp] theorem framingError_counters (len : Nat) (s : State) : (framingError len s).counters = { s.counters with frameErr := satAdd32 s.counters.frameErr 1 } := rfl
@[simp] theorem framingError_srHist (len : Nat) (s : State) : (framingError len s).srHist = s.srHist := rfl
@[simp] theorem framingError_successRate (len : Nat) (s : State) : (framingError len s).successRate = s.successRate := rfl
@[simp] theorem framingError_xpadPrevLen (len : Nat) (s : State) : (framingError len s).xpadPrevLen = s.xpadPrevLen := rfl
@[simp] theorem framingError_xpadPrevApp (len : Nat) (s : State) : (framingError len s).xpadPrevApp = s.xpadPrevApp := rfl
@[simp] theorem framingError_shortPrevApp (len : Nat) (s : State) : (framingError len s).shortPrevApp = s.shortPrevApp := rfl
@[simp] theorem framingError_dgActive (len : Nat) (s : State) : (framingError len s).dgActive = s.dgActive := rfl
@[simp] theorem framingError_dgBuf (len : Nat) (s : State) : (framingError len s).dgBuf = s.dgBuf := rfl
@[simp] theorem framingError_asm (len : Nat) (s : State) : (framingError len s).asm = s.asm := rfl
@[simp] theorem framingError_label (len : Nat) (s : State) : (framingError len s).label = s.label := rfl
@[simp] theorem framingError_input (len : Nat) (s : State) : (framingError len s).input = s.input := rfl
@[simp] theorem framingError_output (len : Nat) (s : State) : (framingError len s).output = s.output ++ [framingErrorEvent len (expectedFrameLen s)] := rfl
@[simp] theorem framingError_accepted (len : Nat) (s : State) : (framingError len s).accepted = s.accepted := rfl
@[simp] theorem framingError_acceptsNow (len : Nat) (s : State) : (framingError len s).acceptsNow = s.acceptsNow := rfl
@[simp] theorem framingError_raised (len : Nat) (s : State) : (framingError len s).raised = s.raised ++ [.framing len] := rfl

@[simp] theorem sessionReset_cfgBitrate (s : State) : (sessionReset s).cfgBitrate = s.cfgBitrate := rfl
@[simp] theorem sessionReset_fatal (s : State) : (sessionReset s).fatal = s.fatal := rfl
@[simp] theorem sessionReset_frames (s : State) : (sessionReset s).frames = [] := rfl
@[simp] theorem sessionReset_syncState (s : State) : (sessionReset s).syncState = .noHeader := rfl
@[simp] theorem sessionReset_failRun (s : State) : (sessionReset s).failRun = 0 := rfl
@[simp] theorem sessionReset_lastGood (s : State) : (sessionReset s).lastGood = LastGood.cleared := rfl
@[simp] theorem sessionReset_nominalAus (s : State) : (sessionReset s).nominalAus = 0 := rfl
@[simp] theorem sessionReset_counters (s : State) : (sessionReset s).counters = Counters.zero := rfl
@[simp] theorem sessionReset_srHist (s : State) : (sessionReset s).srHist = [] := rfl
@[simp] theorem sessionReset_successRate (s : State) : (sessionReset s).successRate = 0 := rfl
@[simp] theorem sessionReset_xpadPrevLen (s : State) : (sessionReset s).xpadPrevLen = 0 := rfl
@[simp] theorem sessionReset_xpadPrevApp (s : State) : (sessionReset s).xpadPrevApp = 0 := rfl
@[simp] theorem sessionReset_shortPrevApp (s : State) : (sessionReset s).shortPrevApp = 0 := rfl
@[simp] theorem sessionReset_dgActive (s : State) : (sessionReset s).dgActive = false := rfl
@[simp] theorem sessionReset_dgBuf (s : State) : (sessionReset s).dgBuf = [] := rfl
@[simp] theorem sessionReset_asm (s : State) : (sessionReset s).asm = LabelAsm.cleared := rfl
@[simp] theorem sessionReset_label (s : State) : (sessionReset s).label = LabelReg.cleared := rfl
@[simp] theorem sessionReset_input (s : State) : (sessionReset s).input = s.input := rfl
@[simp] theorem sessionReset_output (s : State) : (sessionReset s).output = s.output := rfl
@[simp] theorem sessionReset_accepted (s : State) : (sessionReset s).accepted = s.accepted := rfl
@[simp] theorem sessionReset_acceptsNow (s : State) : (sessionReset s).acceptsNow = s.acceptsNow := rfl
@[simp] theorem sessionReset_raised (s : State) : (sessionReset s).raised = s.raised := rfl

@[simp] theorem hostSend_cfgBitrate (bytes : List Byte) (s : State) : (State.hostSend bytes s).cfgBitrate = s.cfgBitrate := rfl
@[simp] theorem hostSend_fatal (bytes : List Byte) (s : State) : (State.hostSend bytes s).fatal = s.fatal := rfl
@[simp] theorem hostSend_frames (bytes : List Byte) (s : State) : (State.hostSend bytes s).frames = s.frames := rfl
@[simp] theorem hostSend_syncState (bytes : List Byte) (s : State) : (State.hostSend bytes s).syncState = s.syncState := rfl
@[simp] theorem hostSend_failRun (bytes : List Byte) (s : State) : (State.hostSend bytes s).failRun = s.failRun := rfl
@[simp] theorem hostSend_lastGood (bytes : List Byte) (s : State) : (State.hostSend bytes s).lastGood = s.lastGood := rfl
@[simp] theorem hostSend_nominalAus (bytes : List Byte) (s : State) : (State.hostSend bytes s).nominalAus = s.nominalAus := rfl
@[simp] theorem hostSend_counters (bytes : List Byte) (s : State) : (State.hostSend bytes s).counters = s.counters := rfl
@[simp] theorem hostSend_srHist (bytes : List Byte) (s : State) : (State.hostSend bytes s).srHist = s.srHist := rfl
@[simp] theorem hostSend_successRate (bytes : List Byte) (s : State) : (State.hostSend bytes s).successRate = s.successRate := rfl
@[simp] theorem hostSend_xpadPrevLen (bytes : List Byte) (s : State) : (State.hostSend bytes s).xpadPrevLen = s.xpadPrevLen := rfl
@[simp] theorem hostSend_xpadPrevApp (bytes : List Byte) (s : State) : (State.hostSend bytes s).xpadPrevApp = s.xpadPrevApp := rfl
@[simp] theorem hostSend_shortPrevApp (bytes : List Byte) (s : State) : (State.hostSend bytes s).shortPrevApp = s.shortPrevApp := rfl
@[simp] theorem hostSend_dgActive (bytes : List Byte) (s : State) : (State.hostSend bytes s).dgActive = s.dgActive := rfl
@[simp] theorem hostSend_dgBuf (bytes : List Byte) (s : State) : (State.hostSend bytes s).dgBuf = s.dgBuf := rfl
@[simp] theorem hostSend_asm (bytes : List Byte) (s : State) : (State.hostSend bytes s).asm = s.asm := rfl
@[simp] theorem hostSend_label (bytes : List Byte) (s : State) : (State.hostSend bytes s).label = s.label := rfl
@[simp] theorem hostSend_input (bytes : List Byte) (s : State) : (State.hostSend bytes s).input = s.input ++ bytes := rfl
@[simp] theorem hostSend_output (bytes : List Byte) (s : State) : (State.hostSend bytes s).output = s.output := rfl
@[simp] theorem hostSend_accepted (bytes : List Byte) (s : State) : (State.hostSend bytes s).accepted = s.accepted := rfl
@[simp] theorem hostSend_acceptsNow (bytes : List Byte) (s : State) : (State.hostSend bytes s).acceptsNow = s.acceptsNow := rfl
@[simp] theorem hostSend_raised (bytes : List Byte) (s : State) : (State.hostSend bytes s).raised = s.raised := rfl

/-! The derived sizes depend on the configured bitrate alone. -/

@[simp] theorem emit_configured (e : Event) (s : State) : (emit e s).configured = s.configured := rfl
@[simp] theorem emit_subchannel (e : Event) (s : State) : (emit e s).subchannel = s.subchannel := rfl
@[simp] theorem emit_frameLen (e : Event) (s : State) : (emit e s).frameLen = s.frameLen := rfl
@[simp] theorem emitAll_configured (es : List Event) (s : State) : (emitAll es s).configured = s.configured := rfl
@[simp] theorem emitAll_subchannel (es : List Event) (s : State) : (emitAll es s).subchannel = s.subchannel := rfl
@[simp] theorem emitAll_frameLen (es : List Event) (s : State) : (emitAll es s).frameLen = s.frameLen := rfl
@[simp] theorem raise_configured (e : BlockError) (s : State) : (raise e s).configured = s.configured := rfl
@[simp] theorem raise_subchannel (e : BlockError) (s : State) : (raise e s).subchannel = s.subchannel := rfl
@[simp] theorem raise_frameLen (e : BlockError) (s : State) : (raise e s).frameLen = s.frameLen := rfl
@[simp] theorem countFrameErr_configured (s : State) : (countFrameErr s).configured = s.configured := rfl
@[simp] theorem countFrameErr_subchannel (s : State) : (countFrameErr s).subchannel = s.subchannel := rfl
@[simp] theorem countFrameErr_frameLen (s : State) : (countFrameErr s).frameLen = s.frameLen := rfl
@[simp] theorem countAus_configured (ninv nfwd : Nat) (s : State) : (countAus ninv nfwd s).configured = s.configured := rfl
@[simp] theorem countAus_subchannel (ninv nfwd : Nat) (s : State) : (countAus ninv nfwd s).subchannel = s.subchannel := rfl
@[simp] theorem countAus_frameLen (ninv nfwd : Nat) (s : State) : (countAus ninv nfwd s).frameLen = s.frameLen := rfl
@[simp] theorem countRs_configured (corr nunc : Nat) (s : State) : (countRs corr nunc s).configured = s.configured := rfl
@[simp] theorem countRs_subchannel (corr nunc : Nat) (s : State) : (countRs corr nunc s).subchannel = s.subchannel := rfl
@[simp] theorem countRs_frameLen (corr nunc : Nat) (s : State) : (countRs corr nunc s).frameLen = s.frameLen := rfl
@[simp] theorem countPadLenErr_configured (s : State) : (countPadLenErr s).configured = s.configured := rfl
@[simp] theorem countPadLenErr_subchannel (s : State) : (countPadLenErr s).subchannel = s.subchannel := rfl
@[simp] theorem countPadLenErr_frameLen (s : State) : (countPadLenErr s).frameLen = s.frameLen := rfl
@[simp] theorem countDlCrcErr_configured (s : State) : (countDlCrcErr s).configured = s.configured := rfl
@[simp] theorem countDlCrcErr_subchannel (s : State) : (countDlCrcErr s).subchannel = s.subchannel := rfl
@[simp] theorem countDlCrcErr_frameLen (s : State) : (countDlCrcErr s).frameLen = s.frameLen := rfl
@[simp] theorem countSuperframe_configured (s : State) : (countSuperframe s).configured = s.configured := rfl
@[simp] theorem countSuperframe_subchannel (s : State) : (countSuperframe s).subchannel = s.subchannel := rfl
@[simp] theorem countSuperframe_frameLen (s : State) : (countSuperframe s).frameLen = s.frameLen := rfl
@[simp] theorem setFrames_configured (fs : List (List Byte)) (s : State) : (setFrames fs s).configured = s.configured := rfl
@[simp] theorem setFrames_subchannel (fs : List (List Byte)) (s : State) : (setFrames fs s).subchannel = s.subchannel := rfl
@[simp] theorem setFrames_frameLen (fs : List (List Byte)) (s : State) : (setFrames fs s).frameLen = s.frameLen := rfl
@[simp] theorem commandError_configured (op code : Byte) (s : State) : (commandError op code s).configured = s.configured := rfl
@[simp] theorem commandError_subchannel (op code : Byte) (s : State) : (commandError op code s).subchannel = s.subchannel := rfl
@[simp] theorem commandError_frameLen (op code : Byte) (s : State) : (commandError op code s).frameLen = s.frameLen := rfl
@[simp] theorem setGroup_configured (active : Bool) (buf : List Byte) (s : State) : (setGroup active buf s).configured = s.configured := rfl
@[simp] theorem setGroup_subchannel (active : Bool) (buf : List Byte) (s : State) : (setGroup active buf s).subchannel = s.subchannel := rfl
@[simp] theorem setGroup_frameLen (active : Bool) (buf : List Byte) (s : State) : (setGroup active buf s).frameLen = s.frameLen := rfl
@[simp] theorem setXpadPrev_configured (len : Nat) (app : BitVec 5) (s : State) : (setXpadPrev len app s).configured = s.configured := rfl
@[simp] theorem setXpadPrev_subchannel (len : Nat) (app : BitVec 5) (s : State) : (setXpadPrev len app s).subchannel = s.subchannel := rfl
@[simp] theorem setXpadPrev_frameLen (len : Nat) (app : BitVec 5) (s : State) : (setXpadPrev len app s).frameLen = s.frameLen := rfl
@[simp] theorem padLengthError_configured (needed avail : Nat) (s : State) : (padLengthError needed avail s).configured = s.configured := rfl
@[simp] theorem padLengthError_subchannel (needed avail : Nat) (s : State) : (padLengthError needed avail s).subchannel = s.subchannel := rfl
@[simp] theorem padLengthError_frameLen (needed avail : Nat) (s : State) : (padLengthError needed avail s).frameLen = s.frameLen := rfl
@[simp] theorem framingError_configured (len : Nat) (s : State) : (framingError len s).configured = s.configured := rfl
@[simp] theorem framingError_subchannel (len : Nat) (s : State) : (framingError len s).subchannel = s.subchannel := rfl
@[simp] theorem framingError_frameLen (len : Nat) (s : State) : (framingError len s).frameLen = s.frameLen := rfl
@[simp] theorem sessionReset_configured (s : State) : (sessionReset s).configured = s.configured := rfl
@[simp] theorem sessionReset_subchannel (s : State) : (sessionReset s).subchannel = s.subchannel := rfl
@[simp] theorem sessionReset_frameLen (s : State) : (sessionReset s).frameLen = s.frameLen := rfl
@[simp] theorem hostSend_configured (bytes : List Byte) (s : State) : (State.hostSend bytes s).configured = s.configured := rfl
@[simp] theorem hostSend_subchannel (bytes : List Byte) (s : State) : (State.hostSend bytes s).subchannel = s.subchannel := rfl
@[simp] theorem hostSend_frameLen (bytes : List Byte) (s : State) : (State.hostSend bytes s).frameLen = s.frameLen := rfl

end Sys2Proof.Machine
end

