-- ==== Sys2Proof/Laws/Bytes.lean ====
section
/-! SUPPORT. The small lemmas of the byte, field and saturation helpers (R10 to R12, R66), and of reading the stream. -/

namespace Sys2Proof

@[simp] theorem withValue_eq {w : Nat} {α : Type} (v : BitVec w) (f : BitVec w → α) : withValue v f = f v := by
  have h : ∀ n, v.toNat = n → BitVec.ofNat w n = v := by rintro n rfl; simp
  unfold withValue
  split <;> rename_i hv <;> rw [h _ hv]

theorem toNat_be16 (hi lo : Byte) : (be16 hi lo).toNat = hi.toNat * 256 + lo.toNat := by
  have := Nat.two_pow_add_eq_or_of_lt lo.isLt hi.toNat
  rw [be16, BitVec.toNat_append, Nat.shiftLeft_eq, Nat.mul_comm]
  omega

/-- `be16` and the two bytes of a number undo each other. -/
@[simp] theorem be16_be16Bytes (v : Half) : be16 (v.extractLsb' 8 8) (v.extractLsb' 0 8) = v := by
  apply BitVec.eq_of_toNat_eq
  have := v.isLt
  rw [toNat_be16, BitVec.extractLsb'_toNat, BitVec.extractLsb'_toNat, Nat.shiftRight_eq_div_pow]
  omega

theorem be16Bytes_be16 (hi lo : Byte) : be16Bytes (be16 hi lo) = [hi, lo] := by
  have h1 : (be16 hi lo).extractLsb' 8 8 = hi := by
    apply BitVec.eq_of_toNat_eq
    rw [BitVec.extractLsb'_toNat, toNat_be16, Nat.shiftRight_eq_div_pow]
    omega
  have h2 : (be16 hi lo).extractLsb' 0 8 = lo := by
    apply BitVec.eq_of_toNat_eq
    rw [BitVec.extractLsb'_toNat, toNat_be16, Nat.shiftRight_eq_div_pow]
    omega
  rw [be16Bytes, h1, h2]

@[simp] theorem be16Bytes_length (v : Half) : (be16Bytes v).length = 2 := rfl
@[simp] theorem be32Bytes_length (v : Word) : (be32Bytes v).length = 4 := rfl
@[simp] theorem be16Nat_length (n : Nat) : (be16Nat n).length = 2 := rfl

theorem byteAt_eq_getElem (b : List Byte) (i : Nat) (h : i < b.length) : byteAt b i = b[i] := by
  simp [byteAt, h]

@[simp] theorem byteAt_cons_zero (x : Byte) (b : List Byte) : byteAt (x :: b) 0 = x := rfl
@[simp] theorem byteAt_cons_succ (x : Byte) (b : List Byte) (i : Nat) : byteAt (x :: b) (i + 1) = byteAt b i := by
  simp [byteAt]

theorem byteAt_append_left (a b : List Byte) (i : Nat) (h : i < a.length) : byteAt (a ++ b) i = byteAt a i := by
  simp [byteAt, List.getElem?_append, h]

theorem byteAt_append_right (a b : List Byte) (i : Nat) : byteAt (a ++ b) (a.length + i) = byteAt b i := by
  simp [byteAt, List.getElem?_append]

/-- A saturating counter never falls (R288). -/
theorem le_satAdd32 (c : Word) (n : Nat) : c ≤ satAdd32 c n := by
  have := c.isLt
  simp only [satAdd32, BitVec.le_def, BitVec.toNat_ofNat]
  omega

theorem toNat_satAdd32 (c : Word) (n : Nat) : (satAdd32 c n).toNat = min (c.toNat + n) (2 ^ 32 - 1) := by
  simp only [satAdd32, BitVec.toNat_ofNat]
  omega

theorem toNat_satAdd8 (c : Byte) (n : Nat) : (satAdd8 c n).toNat = min (c.toNat + n) 255 := by
  simp only [satAdd8, BitVec.toNat_ofNat]
  omega

theorem bitField_lt (v : Byte) (hi lo : Nat) : bitField v hi lo < 2 ^ (hi + 1 - lo) :=
  Nat.mod_lt _ (Nat.two_pow_pos _)

/-- What splitting a byte string answers. -/
theorem splitBytes_eq (n : Nat) (bytes acc : List Byte) :
    splitBytes n bytes acc =
      if n ≤ bytes.length then some (acc.reverse ++ bytes.take n, bytes.drop n) else none := by
  induction n generalizing bytes acc with
  | zero => simp [splitBytes]
  | succ n ih =>
    cases bytes with
    | nil => simp [splitBytes]
    | cons b bytes => simp [splitBytes, ih]

/-- The decoder on a whole word, with the payload spelled out (R82). -/
theorem decode_word (op rsv a1 a0 : Byte) (rest : List Byte) :
    decode (op :: rsv :: a1 :: a0 :: rest) =
      if op = 0x03 then
        if (be16 a1 a0).toNat ≤ rest.length then
          .ok (.addFrame rsv (rest.take (be16 a1 a0).toNat), rest.drop (be16 a1 a0).toNat)
        else .error .incompletePayload
      else .ok (decodeWord op rsv (be16 a1 a0), rest) := by
  by_cases h : op = 0x03
  · simp only [decode, h, if_true, splitBytes_eq]
    by_cases h2 : (be16 a1 a0).toNat ≤ rest.length <;> simp [h2]
  · rw [decode, if_neg h, if_neg h]

/-- The shapes a byte string can have for the decoder: fewer than four bytes, or a word and what follows it. -/
theorem word_cases (bytes : List Byte) :
    bytes.length < 4 ∨ ∃ op rsv a1 a0 rest, bytes = op :: rsv :: a1 :: a0 :: rest := by
  match bytes with
  | [] => simp
  | [_] => simp
  | [_, _] => simp
  | [_, _, _] => simp
  | a :: b :: c :: d :: rest => exact .inr ⟨a, b, c, d, rest, rfl⟩

/-- Below four bytes there is no command (R340). -/
theorem decode_short (bytes : List Byte) (h : bytes.length < 4) :
    decode bytes = .error (if bytes = [] then .endOfInput else .incompleteWord) := by
  match bytes, h with
  | [], _ => rfl
  | [_], _ => rfl
  | [_, _], _ => rfl
  | [_, _, _], _ => rfl

end Sys2Proof
end

