-- ==== Sys2Proof/Laws/Tables.lean ====
section
/-! SUPPORT. The values of the configuration's constants, and what the operations that read several of them are when the
values are written out. -/

namespace Sys2Proof

namespace Tables

@[simp] theorem bitrateUnit_eq : bitrateUnit = 8 := rfl
@[simp] theorem frameBytes_eq : frameBytes = 24 := rfl
@[simp] theorem rsDataLen_eq : rsDataLen = 110 := rfl
@[simp] theorem rsCodeLen_eq : rsCodeLen = 120 := rfl
@[simp] theorem rsParityLen_eq : rsParityLen = 10 := rfl
@[simp] theorem rsCapacity_eq : rsCapacity = 5 := rfl
@[simp] theorem rsFirstRoot_eq : rsFirstRoot = 0 := rfl
@[simp] theorem rsRootSpacing_eq : rsRootSpacing = 1 := rfl
@[simp] theorem firecodeFinal_eq : firecodeFinal = 0 := rfl
@[simp] theorem headerLen_eq : headerLen = 11 := rfl
@[simp] theorem firecodeCoverStart_eq : firecodeCoverStart = 2 := rfl
@[simp] theorem firecodeCoverLen_eq : firecodeCoverLen = 9 := rfl
@[simp] theorem crcLen_eq : crcLen = 2 := rfl
@[simp] theorem auFieldsStart_eq : auFieldsStart = 24 := rfl
@[simp] theorem auFieldBits_eq : auFieldBits = 12 := rfl
@[simp] theorem fpadLen_eq : fpadLen = 2 := rfl
@[simp] theorem fpadTypeXpad_eq : fpadTypeXpad = 0 := rfl
@[simp] theorem xpadShort_eq : xpadShort = 1 := rfl
@[simp] theorem xpadVariable_eq : xpadVariable = 2 := rfl
@[simp] theorem shortXpadLen_eq : shortXpadLen = 4 := rfl
@[simp] theorem shortXpadCiLen_eq : shortXpadCiLen = 1 := rfl
@[simp] theorem ciMax_eq : ciMax = 4 := rfl
@[simp] theorem appEndMarker_eq : appEndMarker = 0 := rfl
@[simp] theorem appLabelStart_eq : appLabelStart = 2 := rfl
@[simp] theorem appLabelCont_eq : appLabelCont = 3 := rfl
@[simp] theorem dgPrefixLen_eq : dgPrefixLen = 2 := rfl
@[simp] theorem dlPlusCommand_eq : dlPlusCommand = 2 := rfl
@[simp] theorem otherCommandLen_eq : otherCommandLen = 0 := rfl

/-- The roots of the generator polynomial are `α^0` to `α^9` (R191). -/
theorem rsRootExponent_eq (i : Nat) : rsRootExponent i = i := by simp [rsRootExponent]

/-- The interleave and its inverse (R192). -/
theorem interleave_inverse {s j : Nat} (h : j < s) (k : Nat) :
    interleaveRow s (interleave s j k) = j ∧ interleaveColumn s (interleave s j k) = k := by
  unfold interleaveRow interleaveColumn interleave
  constructor
  · rw [Nat.add_mul_mod_self_right, Nat.mod_eq_of_lt h]
  · rw [Nat.add_mul_div_right _ _ (by omega), Nat.div_eq_of_lt h, Nat.zero_add]

/-- The application type that continues a type (R240). -/
theorem contApp_eq (app : BitVec 5) :
    contApp app = if app = 2 then 3 else if app = 12 then 13 else if app = 14 then 15 else app := rfl

end Tables

namespace Machine

/-- The length of a data group, by its prefix (R244). -/
theorem expectedLen_eq (p0 p1 : Byte) :
    expectedLen p0 p1 =
      if p0.getLsbD 4 = false then 2 + (bitField p0 3 0 + 1) + 2
      else if bitField p0 3 0 = 2 then 2 + (bitField p1 3 0 + 1) + 2
      else 4 := by
  unfold expectedLen Tables.dgFieldLen Tables.dgCommand
  cases p0.getLsbD 4
  · rfl
  · by_cases h : bitField p0 3 0 = 2 <;> simp [h]

/-- When the buffered bytes are a whole data group (R243). -/
theorem groupComplete_iff (buf : List Byte) :
    groupComplete buf = true ↔ 2 ≤ buf.length ∧ buf.length = expectedLen (byteAt buf 0) (byteAt buf 1) := by
  rw [groupComplete, Bool.and_eq_true, beq_iff_eq, decide_eq_true_eq]
  exact Iff.rfl

end Machine

end Sys2Proof
end

