-- ==== Sys2Proof/Laws/Pad.lean ====
section
/-! SUPPORT. What the PAD processor can do, once for each operation (R230 to R248), and one rule that carries a property of
states through the PAD of a frame. -/

namespace Sys2Proof.Machine

/-- What a label segment does (R260 to R266). -/
theorem labelSegment_eq (g : SegmentInfo) (s : State) :
    labelSegment g s =
      if (s.asm.store g).complete = true then
        { s with
          asm := { LabelAsm.cleared with toggle := g.toggle }
          label := ⟨true, (s.asm.store g).charset, (s.asm.store g).text⟩
          output := s.output ++ [labelEvent (s.asm.store g).charset (s.asm.store g).text] }
      else { s with asm := s.asm.store g } := rfl

/-- A whole group has the length its prefix declares (R243, R244). -/
theorem groupComplete_length {buf : List Byte} (h : groupComplete buf = true) :
    buf.length = expectedLen (byteAt buf 0) (byteAt buf 1) := by
  exact ((groupComplete_iff buf).1 h).2

/-- A data group has 4 to 20 bytes (R244). -/
theorem expectedLen_bounds (p0 p1 : Byte) : 4 ≤ expectedLen p0 p1 ∧ expectedLen p0 p1 ≤ 20 := by
  have h0 := bitField_lt p0 3 0
  have h1 := bitField_lt p1 3 0
  rw [expectedLen_eq]
  split_ifs <;> omega

/-- A label segment's group has 5 to 20 bytes (R244). -/
theorem expectedLen_segment {p0 : Byte} (p1 : Byte) (h : p0.getLsbD 4 = false) :
    5 ≤ expectedLen p0 p1 ∧ expectedLen p0 p1 ≤ 20 := by
  have h0 := bitField_lt p0 3 0
  rw [expectedLen_eq, if_pos h]
  omega

/-- What a whole group can do: count a CRC error, nothing, or hand a segment of 1 to 16 bytes to the assembler (R245, R246). -/
theorem groupDone_cases (p : Params) {g : List Byte} (s : State) (hg : groupComplete g = true) :
    groupDone p g s = countDlCrcErr s ∨ groupDone p g s = s ∨
      ∃ info : SegmentInfo, groupDone p g s = labelSegment info s ∧ 1 ≤ info.payload.length ∧ info.payload.length ≤ 16 := by
  have hl := groupComplete_length hg
  unfold groupDone
  by_cases hc : (!crcOk g && p.dlCrcCheck) = true
  · exact .inl (if_pos hc)
  · rw [if_neg hc]
    by_cases h4 : (byteAt g 0).getLsbD 4 = true
    · exact .inr (.inl (if_pos h4))
    · rw [if_neg h4]
      have := expectedLen_segment (byteAt g 1) (by simpa using h4)
      unfold segment
      by_cases h0 : Tables.dgMalformed (byteAt g 0) (byteAt g 1) = true
      · exact .inr (.inl (if_pos h0))
      · refine .inr (.inr ⟨_, if_neg h0, ?_, ?_⟩) <;>
          simp only [List.length_drop, List.length_take, Tables.crcLen_eq, Tables.dgPrefixLen_eq] <;> omega

/-- What one byte does to an open group (R243). -/
theorem feedByte_cases (p : Params) (b : Byte) (s : State) :
    (groupComplete (s.dgBuf ++ [b]) = true ∧ feedByte p b s = groupDone p (s.dgBuf ++ [b]) (setGroup false [] s)) ∨
    (groupComplete (s.dgBuf ++ [b]) = false ∧ feedByte p b s = setGroup s.dgActive (s.dgBuf ++ [b]) s) := by
  unfold feedByte
  by_cases h : groupComplete (s.dgBuf ++ [b]) = true
  · exact .inl ⟨h, if_pos h⟩
  · exact .inr ⟨by simpa using h, if_neg h⟩

theorem feed_cons (p : Params) (b : Byte) (bytes : List Byte) (s : State) :
    feed p (b :: bytes) s = if s.dgActive = true then feed p bytes (feedByte p b s) else s := rfl

/-- A closed group takes no byte (R243). -/
theorem feed_closed (p : Params) (bytes : List Byte) (s : State) (h : s.dgActive = false) : feed p bytes s = s := by
  cases bytes <;> simp [feed, h]

/-- Bytes that arrive in two pieces do what they do in one (R242, R243). -/
theorem feed_append (p : Params) (a b : List Byte) (s : State) : feed p (a ++ b) s = feed p b (feed p a s) := by
  induction a generalizing s with
  | nil => rfl
  | cons x a ih =>
    rw [List.cons_append, feed_cons, feed_cons]
    split
    · exact ih _
    · rename_i h
      exact (feed_closed p b s (by simpa using h)).symm

/-- What the operations of the PAD processor do to a state, one by one: a property they all keep is kept by the PAD of every
frame. -/
structure PadClosed (P : State → Prop) : Prop where
  event : ∀ e s, e.tag = 0x06 ∨ e.tag = 0x07 → P s → P (emit e s)
  shortApp : ∀ app (s : State), P s → P { s with shortPrevApp := app }
  group : ∀ active buf s, P s → P (setGroup active buf s)
  crcError : ∀ s, P s → P (countDlCrcErr s)
  segment : ∀ info s, 1 ≤ info.payload.length → info.payload.length ≤ 16 → P s → P (labelSegment info s)
  lengthError : ∀ needed avail s, P s → P (padLengthError needed avail s)
  prevApp : ∀ len app s, P s → P (setXpadPrev len app s)
  contApp : ∀ app (s : State), P s → P { s with xpadPrevApp := app }

theorem PadClosed.feedByte {P : State → Prop} (h : PadClosed P) (p : Params) (b : Byte) {s : State} (hs : P s) :
    P (feedByte p b s) := by
  rcases feedByte_cases p b s with ⟨hg, e⟩ | ⟨_, e⟩ <;> rw [e]
  · have hs' := h.group false [] s hs
    rcases groupDone_cases p (setGroup false [] s) hg with e | e | ⟨info, e, h1, h16⟩ <;> rw [e]
    · exact h.crcError _ hs'
    · exact hs'
    · exact h.segment info _ h1 h16 hs'
  · exact h.group _ _ s hs

theorem PadClosed.feed {P : State → Prop} (h : PadClosed P) (p : Params) (bytes : List Byte) {s : State} (hs : P s) :
    P (feed p bytes s) := by
  induction bytes generalizing s with
  | nil => exact hs
  | cons b bytes ih =>
    rw [feed_cons]
    split
    · exact ih (h.feedByte p b hs)
    · exact hs

theorem PadClosed.dispatch {P : State → Prop} (h : PadClosed P) (p : Params) (app : BitVec 5) (bytes : List Byte)
    {s : State} (hs : P s) : P (dispatchSubfield p app bytes s) := by
  unfold dispatchSubfield
  split
  · exact h.feed p bytes (h.group _ _ s hs)
  · split
    · split
      · exact h.feed p bytes hs
      · exact hs
    · exact h.event _ s (.inr rfl) hs

theorem PadClosed.walk {P : State → Prop} (h : PadClosed P) (p : Params) (xpad : List Byte)
    (subs : List (Nat × BitVec 5)) (pos : Nat) {s : State} (hs : P s) : P (walkSubfields p xpad subs pos s) := by
  induction subs generalizing pos s with
  | nil => exact hs
  | cons sub subs ih =>
    obtain ⟨len, app⟩ := sub
    unfold walkSubfields
    split
    · exact h.lengthError _ _ s hs
    · exact ih _ (h.prevApp _ _ _ (h.dispatch p app _ hs))

theorem PadClosed.frame {P : State → Prop} (h : PadClosed P) (p : Params) (frame : List Byte) {s : State}
    (hs : P s) : P (processPad p frame s) := by
  unfold processPad
  dsimp only
  split
  · exact hs
  · split
    · unfold shortXpad
      split
      · exact h.event _ _ (.inl rfl) (h.shortApp _ s hs)
      · exact h.event _ s (.inl rfl) hs
    · split
      · split
        · exact h.walk p _ _ _ hs
        · unfold varXpadCont
          dsimp only
          split
          · exact hs
          · split
            · exact h.lengthError _ _ s hs
            · exact h.contApp _ _ (h.dispatch p _ _ hs)
      · exact hs

/-- What the PAD of a frame leaves alone (R152). -/
structure PadKeeps (s t : State) : Prop where
  cfgBitrate : t.cfgBitrate = s.cfgBitrate
  fatal : t.fatal = s.fatal
  frames : t.frames = s.frames
  syncState : t.syncState = s.syncState
  failRun : t.failRun = s.failRun
  lastGood : t.lastGood = s.lastGood
  nominalAus : t.nominalAus = s.nominalAus
  frameErr : t.counters.frameErr = s.counters.frameErr
  auErr : t.counters.auErr = s.counters.auErr
  rsCorr : t.counters.rsCorr = s.counters.rsCorr
  rsUncorr : t.counters.rsUncorr = s.counters.rsUncorr
  sfCount : t.counters.sfCount = s.counters.sfCount
  auFwd : t.counters.auFwd = s.counters.auFwd
  srHist : t.srHist = s.srHist
  successRate : t.successRate = s.successRate
  input : t.input = s.input
  accepted : t.accepted = s.accepted
  acceptsNow : t.acceptsNow = s.acceptsNow

theorem PadKeeps.refl (s : State) : PadKeeps s s := by constructor <;> rfl

/-- A state that has all the kept fields of another keeps what it keeps. -/
theorem PadKeeps.of_eq {s t u : State} (h : PadKeeps s t) (hu : PadKeeps t u) : PadKeeps s u where
  cfgBitrate := hu.cfgBitrate.trans h.cfgBitrate
  fatal := hu.fatal.trans h.fatal
  frames := hu.frames.trans h.frames
  syncState := hu.syncState.trans h.syncState
  failRun := hu.failRun.trans h.failRun
  lastGood := hu.lastGood.trans h.lastGood
  nominalAus := hu.nominalAus.trans h.nominalAus
  frameErr := hu.frameErr.trans h.frameErr
  auErr := hu.auErr.trans h.auErr
  rsCorr := hu.rsCorr.trans h.rsCorr
  rsUncorr := hu.rsUncorr.trans h.rsUncorr
  sfCount := hu.sfCount.trans h.sfCount
  auFwd := hu.auFwd.trans h.auFwd
  srHist := hu.srHist.trans h.srHist
  successRate := hu.successRate.trans h.successRate
  input := hu.input.trans h.input
  accepted := hu.accepted.trans h.accepted
  acceptsNow := hu.acceptsNow.trans h.acceptsNow

theorem labelSegment_keeps (g : SegmentInfo) (s : State) : PadKeeps s (labelSegment g s) := by
  rw [labelSegment_eq]
  split <;> constructor <;> rfl

theorem padKeeps_closed (s : State) : PadClosed (PadKeeps s) where
  event _ t _ h := h.of_eq (by constructor <;> rfl)
  shortApp _ t h := h.of_eq (by constructor <;> rfl)
  group _ _ t h := h.of_eq (by constructor <;> rfl)
  crcError t h := h.of_eq (by constructor <;> rfl)
  segment info t _ _ h := h.of_eq (labelSegment_keeps info t)
  lengthError _ _ t h := h.of_eq (by constructor <;> rfl)
  prevApp _ _ t h := h.of_eq (by constructor <;> rfl)
  contApp _ t h := h.of_eq (by constructor <;> rfl)

theorem processPad_keeps (p : Params) (frame : List Byte) (s : State) : PadKeeps s (processPad p frame s) :=
  (padKeeps_closed s).frame p frame (.refl s)

/-- What a sub-field leaves of the PAD processor's other state (R241 to R246). -/
structure SubfieldKeeps (s t : State) : Prop where
  xpadPrevLen : t.xpadPrevLen = s.xpadPrevLen
  xpadPrevApp : t.xpadPrevApp = s.xpadPrevApp
  shortPrevApp : t.shortPrevApp = s.shortPrevApp
  padLenErr : t.counters.padLenErr = s.counters.padLenErr
  raised : t.raised = s.raised

theorem SubfieldKeeps.trans {s t u : State} (h : SubfieldKeeps s t) (hu : SubfieldKeeps t u) : SubfieldKeeps s u where
  xpadPrevLen := hu.xpadPrevLen.trans h.xpadPrevLen
  xpadPrevApp := hu.xpadPrevApp.trans h.xpadPrevApp
  shortPrevApp := hu.shortPrevApp.trans h.shortPrevApp
  padLenErr := hu.padLenErr.trans h.padLenErr
  raised := hu.raised.trans h.raised

theorem labelSegment_subfieldKeeps (g : SegmentInfo) (s : State) : SubfieldKeeps s (labelSegment g s) := by
  rw [labelSegment_eq]
  split <;> constructor <;> rfl

theorem feedByte_keeps (p : Params) (b : Byte) (s : State) : SubfieldKeeps s (feedByte p b s) := by
  rcases feedByte_cases p b s with ⟨hg, e⟩ | ⟨_, e⟩ <;> rw [e]
  · rcases groupDone_cases p (setGroup false [] s) hg with e | e | ⟨info, e, _, _⟩ <;> rw [e]
    · constructor <;> rfl
    · constructor <;> rfl
    · exact .trans (t := setGroup false [] s) (by constructor <;> rfl) (labelSegment_subfieldKeeps info _)
  · constructor <;> rfl

theorem feed_keeps (p : Params) (bytes : List Byte) (s : State) : SubfieldKeeps s (feed p bytes s) := by
  induction bytes generalizing s with
  | nil => constructor <;> rfl
  | cons b bytes ih =>
    rw [feed_cons]
    split
    · exact (feedByte_keeps p b s).trans (ih _)
    · constructor <;> rfl

theorem dispatchSubfield_keeps (p : Params) (app : BitVec 5) (bytes : List Byte) (s : State) :
    SubfieldKeeps s (dispatchSubfield p app bytes s) := by
  unfold dispatchSubfield
  split_ifs
  · exact .trans (t := setGroup true [] s) (by constructor <;> rfl) (feed_keeps p bytes _)
  · exact feed_keeps p bytes s
  · constructor <;> rfl
  · constructor <;> rfl

/-- The length that a contents indicator declares (R108). -/
theorem ciEntry_len (ci : Byte) : (ciEntry ci).1 = declaredLen ci := by
  revert ci
  decide +kernel

/-- A contents-indicator list as the sender lays it out is read back whole (R108, R236). -/
theorem ciList_laidOut (max : Nat) (cis marker rest : List Byte)
    (h : ∀ c ∈ cis, c.extractLsb' 0 5 ≠ (0 : BitVec 5))
    (hm : cis.length = max ∧ marker = [] ∨ cis.length < max ∧ ∃ m : Byte, marker = [m] ∧ m.extractLsb' 0 5 = 0) :
    ciList max (cis ++ marker ++ rest) = (cis.map ciEntry, cis.length + marker.length) := by
  induction cis generalizing max with
  | nil =>
    rcases hm with ⟨rfl, rfl⟩ | ⟨hl, m, rfl, he⟩
    · rfl
    · obtain ⟨max, rfl⟩ := Nat.exists_eq_succ_of_ne_zero (Nat.ne_of_gt hl)
      exact if_pos he
  | cons c cis ih =>
    rcases max with _ | max
    · simp at hm
    · have := ih max (fun x hx => h x (List.mem_cons_of_mem _ hx)) (by simpa using hm)
      have hc : (ciEntry c).2 ≠ Tables.appEndMarker := h c List.mem_cons_self
      simp only [List.cons_append, ciList, if_neg hc, this, List.map_cons, List.length_cons]
      congr 1
      omega

/-- The PAD of a frame laid out as X-PAD and F-PAD, by its indicator and its CI flag (R230, R231). -/
theorem processPad_variable (p : Params) (xpad : List Byte) (fb1 fb2 : Byte) (s : State) (h : fb1.extractLsb' 4 4 = 0x2) :
    processPad p (xpad.reverse ++ [fb1, fb2]) s =
      if fb2.getLsbD 1 = true then varXpadWithCi p xpad s else varXpadCont p xpad s := by
  have h0 : bitField fb1 7 6 = 0 ∧ bitField fb1 5 4 = 2 := by
    revert fb1
    decide +kernel
  have hl : (xpad.reverse ++ [fb1, fb2]).length = xpad.reverse.length + 2 := by simp
  have h1 : Tables.fpadByte1 (xpad.reverse ++ [fb1, fb2]) = fb1 := by
    rw [Tables.fpadByte1, hl]
    exact byteAt_append_right _ _ 0
  have h2 : Tables.fpadByte2 (xpad.reverse ++ [fb1, fb2]) = fb2 := by
    rw [Tables.fpadByte2, hl]
    exact byteAt_append_right _ _ 1
  have hx : Tables.xpad (xpad.reverse ++ [fb1, fb2]) = xpad := by
    rw [Tables.xpad, hl, Tables.fpadLen_eq, Nat.add_sub_cancel, List.take_left, List.reverse_reverse]
  unfold processPad
  simp only [h1, h2, hx, Tables.fpadType, Tables.xpadIndicator, h0.1, h0.2, Tables.fpadTypeXpad_eq, Tables.xpadShort_eq,
    Tables.xpadVariable_eq, Tables.ciFlag]
  simp

/-- The walk delivers the sub-fields that are laid out behind the list, in order, and goes on behind them (R237, R239). -/
theorem walkSubfields_laidOut (p : Params) (subs : List (Byte × List Byte)) (pre rest : List Byte)
    (more : List (Nat × BitVec 5)) (s : State) (h : ∀ e ∈ subs, SubfieldOk e) :
    walkSubfields p (pre ++ subs.flatMap (·.2) ++ rest) (subs.map (fun e => ciEntry e.1) ++ more) pre.length s =
      walkSubfields p (pre ++ subs.flatMap (·.2) ++ rest) more (pre.length + (subs.flatMap (·.2)).length)
        (subs.foldl (fun u e => deliverSubfield p (e.1.extractLsb' 0 5) e.2 u) s) := by
  induction subs generalizing pre s with
  | nil => simp
  | cons e subs ih =>
    obtain ⟨ci, d⟩ := e
    have hl : d.length = (ciEntry ci).1 := by
      rw [(h (ci, d) List.mem_cons_self).2, ciEntry_len]
    have hd : ((pre ++ (d ++ subs.flatMap (·.2)) ++ rest).drop pre.length).take (ciEntry ci).1 = d := by
      rw [List.append_assoc, List.drop_left, List.append_assoc, ← hl, List.take_left]
    have ih' := ih (pre ++ d) (deliverSubfield p (ci.extractLsb' 0 5) d s) fun e he => h e (List.mem_cons_of_mem _ he)
    simp only [List.map_cons, List.flatMap_cons, List.cons_append, List.foldl_cons]
    rw [walkSubfields, if_neg (by simp [← hl]), hd]
    have hdel : setXpadPrev (ciEntry ci).1 (ciEntry ci).2 (dispatchSubfield p (ciEntry ci).2 d s) =
        deliverSubfield p (ci.extractLsb' 0 5) d s := by
      rw [← hl]
      rfl
    rw [hdel]
    simp only [List.append_assoc, List.length_append, hl] at ih' ⊢
    simp only [Nat.add_assoc] at ih' ⊢
    exact ih'

end Sys2Proof.Machine
end

