-- ==== Sys2Proof/Laws/Blockwise.lean ====
section
/-! SUPPORT. Every operation on the state is a function of the block's own state that appends events and errors and
passes the rest of the host interface through (R20, R72, R78). -/

namespace Sys2Proof.Machine

/-- The host interface's part of the state. -/
structure HostView where
  /-- The unread bytes. -/
  input : List Byte
  /-- The records emitted. -/
  output : List Event
  /-- The records accepted. -/
  accepted : Nat
  /-- The consumer's readiness. -/
  acceptsNow : Bool
  /-- The errors raised. -/
  raised : List BlockError

/-- A state with another host view. -/
def State.withHost (s : State) (h : HostView) : State :=
  { s with
    input := h.input
    output := h.output
    accepted := h.accepted
    acceptsNow := h.acceptsNow
    raised := h.raised }

/-- The host view of a state. -/
def State.hostView (s : State) : HostView := ⟨s.input, s.output, s.accepted, s.acceptsNow, s.raised⟩

/-- A host view with events and errors appended. -/
def HostView.append (h : HostView) (events : List Event) (errors : List BlockError) : HostView :=
  { h with output := h.output ++ events, raised := h.raised ++ errors }

/-- At the state `s`, `f` appends events and errors to the host view and uses nothing of it. -/
def BlockwiseAt (f : State → State) (s : State) : Prop :=
  ∃ events errors, ∀ h : HostView, f (s.withHost h) = (f s).withHost (h.append events errors)

theorem withHost_hostView (s : State) : s.withHost s.hostView = s := rfl

theorem HostView.append_nil (h : HostView) : h.append [] [] = h := by simp [HostView.append]

theorem HostView.append_append (h : HostView) (e₁ e₂ : List Event) (r₁ r₂ : List BlockError) :
    (h.append e₁ r₁).append e₂ r₂ = h.append (e₁ ++ e₂) (r₁ ++ r₂) := by simp [HostView.append]

theorem BlockwiseAt.of_eq {f : State → State} {s : State} (h : ∀ v, f (s.withHost v) = (f s).withHost v) :
    BlockwiseAt f s := ⟨[], [], fun v => by rw [h, HostView.append_nil]⟩

theorem BlockwiseAt.self (s : State) : BlockwiseAt (fun t => t) s := .of_eq fun _ => rfl

theorem BlockwiseAt.comp {f g : State → State} {s : State} (hf : BlockwiseAt f s) (hg : BlockwiseAt g (f s)) :
    BlockwiseAt (fun t => g (f t)) s := by
  obtain ⟨e₁, r₁, h₁⟩ := hf
  obtain ⟨e₂, r₂, h₂⟩ := hg
  exact ⟨e₁ ++ e₂, r₁ ++ r₂, fun v => by simp only [h₁, h₂, HostView.append_append]⟩

theorem BlockwiseAt.ite {c : State → Prop} [∀ t, Decidable (c t)] {f g : State → State} {s : State}
    (hc : ∀ v, c (s.withHost v) ↔ c s) (hf : c s → BlockwiseAt f s) (hg : ¬c s → BlockwiseAt g s) :
    BlockwiseAt (fun t => if c t then f t else g t) s := by
  by_cases h : c s
  · obtain ⟨e, r, hv⟩ := hf h
    exact ⟨e, r, fun v => by simp only [hc, h, if_true, hv]⟩
  · obtain ⟨e, r, hv⟩ := hg h
    exact ⟨e, r, fun v => by simp only [hc, h, if_false, hv]⟩

theorem emit_blockwise (e : Event) (s : State) : BlockwiseAt (emit e) s :=
  ⟨[e], [], fun v => by simp [HostView.append, emit, State.withHost]⟩

theorem emitAll_blockwise (es : List Event) (s : State) : BlockwiseAt (emitAll es) s :=
  ⟨es, [], fun v => by simp [HostView.append, emitAll, State.withHost]⟩

theorem raise_blockwise (e : BlockError) (s : State) : BlockwiseAt (raise e) s :=
  ⟨[], [e], fun v => by simp [HostView.append, raise, State.withHost]⟩

theorem commandError_blockwise (op code : Byte) (s : State) : BlockwiseAt (commandError op code) s :=
  (raise_blockwise _ s).comp (emit_blockwise _ _)

theorem sessionReset_blockwise (s : State) : BlockwiseAt sessionReset s := .of_eq fun _ => rfl

theorem checkRsv_blockwise (op rsv : Byte) {f : State → State} {s : State} (h : BlockwiseAt f s) :
    BlockwiseAt (checkRsv op rsv f) s :=
  .ite (c := fun _ => rsv = 0) (fun _ => Iff.rfl) (fun _ => h) fun _ => commandError_blockwise _ _ _

theorem configIllegal_blockwise (b : Half) (s : State) : BlockwiseAt (configIllegal b) s :=
  (raise_blockwise _ s).comp <| (emit_blockwise _ _).comp <|
    (sessionReset_blockwise _).comp (.of_eq fun _ => rfl)

theorem config_blockwise (p : Params) (b : Half) (s : State) : BlockwiseAt (config p b) s :=
  .ite (c := fun _ => (!legalBitrate p b) = true) (fun _ => Iff.rfl) (fun _ => configIllegal_blockwise b s) fun _ =>
    .ite (c := fun t => b = t.cfgBitrate) (fun _ => Iff.rfl) (fun _ => .self s) fun _ =>
      (sessionReset_blockwise s).comp (.of_eq fun _ => rfl)

theorem readReg_blockwise (p : Params) (idx : Byte) (s : State) : BlockwiseAt (readReg p idx) s := by
  have h : ∀ v, readRegister p (s.withHost v) idx = readRegister p s idx := fun _ => rfl
  cases hr : readRegister p s idx with
  | some value =>
    obtain ⟨e, r, hv⟩ := emit_blockwise (regValueEvent idx value) s
    exact ⟨e, r, fun v => by simp only [readReg, h, hr, hv]⟩
  | none =>
    obtain ⟨e, r, hv⟩ := commandError_blockwise 4 3 s
    exact ⟨e, r, fun v => by simp only [readReg, h, hr, hv]⟩

theorem snapshot_blockwise (s : State) : BlockwiseAt snapshot s :=
  ⟨[snapshotEvent (snapshotRegs s)], [], fun v => by
    simp [snapshot, HostView.append, emit, State.withHost]; rfl⟩

theorem readLabel_blockwise (s : State) : BlockwiseAt readLabel s :=
  ⟨[labelReadEvent s.label], [], fun v => by simp [readLabel, HostView.append, emit, State.withHost]⟩

theorem labelSegment_blockwise (g : SegmentInfo) (s : State) : BlockwiseAt (labelSegment g) s :=
  .ite (c := fun t => (t.asm.store g).complete = true) (fun _ => Iff.rfl)
    (fun _ => ⟨[labelEvent (s.asm.store g).charset (s.asm.store g).text], [], fun v => by
      simp [HostView.append, emit, State.withHost]⟩)
    fun _ => .of_eq fun _ => rfl

theorem segment_blockwise (g : List Byte) (s : State) : BlockwiseAt (segment g) s :=
  .ite (c := fun _ => _ = true) (fun _ => Iff.rfl) (fun _ => .self s) fun _ => labelSegment_blockwise _ s

theorem groupDone_blockwise (p : Params) (g : List Byte) (s : State) : BlockwiseAt (groupDone p g) s :=
  .ite (c := fun _ => _ = true) (fun _ => Iff.rfl) (fun _ => .of_eq fun _ => rfl) fun _ =>
    .ite (c := fun _ => _ = true) (fun _ => Iff.rfl) (fun _ => .self s) fun _ => segment_blockwise g s

theorem feedByte_blockwise (p : Params) (b : Byte) (s : State) : BlockwiseAt (feedByte p b) s :=
  .ite (c := fun t => groupComplete (t.dgBuf ++ [b]) = true) (fun _ => Iff.rfl)
    (fun _ => by
      obtain ⟨e, r, h⟩ := groupDone_blockwise p (s.dgBuf ++ [b]) (setGroup false [] s)
      exact ⟨e, r, h⟩)
    fun _ => .of_eq fun _ => rfl

theorem feed_blockwise (p : Params) (bytes : List Byte) (s : State) : BlockwiseAt (feed p bytes) s := by
  induction bytes generalizing s with
  | nil => exact .self s
  | cons b bytes ih =>
    exact .ite (c := fun t => t.dgActive = true) (fun _ => Iff.rfl)
      (fun _ => (feedByte_blockwise p b s).comp (ih _)) fun _ => .self s

theorem dispatchSubfield_blockwise (p : Params) (app : BitVec 5) (bytes : List Byte) (s : State) :
    BlockwiseAt (dispatchSubfield p app bytes) s :=
  .ite (c := fun _ => app = Tables.appLabelStart) (fun _ => Iff.rfl)
    (fun _ => (BlockwiseAt.of_eq (f := setGroup true []) fun _ => rfl).comp (feed_blockwise p bytes _)) fun _ =>
    .ite (c := fun _ => app = Tables.appLabelCont) (fun _ => Iff.rfl)
      (fun _ => .ite (c := fun t => t.dgActive = true) (fun _ => Iff.rfl) (fun _ => feed_blockwise p bytes s) fun _ =>
        .self s)
      fun _ => emit_blockwise _ s

theorem padLengthError_blockwise (needed avail : Nat) (s : State) : BlockwiseAt (padLengthError needed avail) s :=
  (raise_blockwise _ s).comp <| (emit_blockwise _ _).comp (.of_eq fun _ => rfl)

theorem walkSubfields_blockwise (p : Params) (xpad : List Byte) (subs : List (Nat × BitVec 5)) (pos : Nat) (s : State) :
    BlockwiseAt (walkSubfields p xpad subs pos) s := by
  induction subs generalizing pos s with
  | nil => exact .self s
  | cons sub subs ih =>
    obtain ⟨len, app⟩ := sub
    exact .ite (c := fun _ => xpad.length < pos + len) (fun _ => Iff.rfl) (fun _ => padLengthError_blockwise _ _ s)
      fun _ => (dispatchSubfield_blockwise p app _ s).comp <|
        (BlockwiseAt.of_eq (f := setXpadPrev len app) fun _ => rfl).comp (ih _ _)

theorem varXpadCont_blockwise (p : Params) (xpad : List Byte) (s : State) : BlockwiseAt (varXpadCont p xpad) s :=
  .ite (c := fun t => t.xpadPrevLen.toNat = 0) (fun _ => Iff.rfl) (fun _ => .self s) fun _ =>
    .ite (c := fun t => xpad.length < t.xpadPrevLen.toNat) (fun _ => Iff.rfl)
      (fun _ => by
        obtain ⟨e, r, h⟩ := padLengthError_blockwise s.xpadPrevLen.toNat xpad.length s
        exact ⟨e, r, h⟩)
      fun _ => by
        obtain ⟨e, r, h⟩ :=
          dispatchSubfield_blockwise p (Tables.contApp s.xpadPrevApp) (xpad.take s.xpadPrevLen.toNat) s
        exact ⟨e, r, fun v => congrArg (fun t : State => { t with xpadPrevApp := Tables.contApp s.xpadPrevApp }) (h v)⟩

theorem shortXpad_blockwise (xpad : List Byte) (ci : Bool) (s : State) : BlockwiseAt (shortXpad xpad ci) s :=
  .ite (c := fun _ => ci = true) (fun _ => Iff.rfl)
    (fun _ => ⟨[shortXpadEvent (Tables.ciApp (Tables.shortXpadCi xpad)) true (Tables.shortXpadData true xpad)], [], fun v => by
      simp [HostView.append, emit, State.withHost]⟩)
    fun _ => ⟨[shortXpadEvent s.shortPrevApp false (Tables.shortXpadData false xpad)], [], fun v => by
      simp [HostView.append, emit, State.withHost]⟩

theorem processPad_blockwise (p : Params) (frame : List Byte) (s : State) : BlockwiseAt (processPad p frame) s :=
  .ite (c := fun _ => _) (fun _ => Iff.rfl) (fun _ => .self s) fun _ =>
    .ite (c := fun _ => _) (fun _ => Iff.rfl) (fun _ => shortXpad_blockwise _ _ s) fun _ =>
      .ite (c := fun _ => _) (fun _ => Iff.rfl)
        (fun _ => .ite (c := fun _ => _ = true) (fun _ => Iff.rfl) (fun _ => walkSubfields_blockwise p _ _ _ s) fun _ =>
          varXpadCont_blockwise p _ s)
        fun _ => .self s

theorem applyHeader_blockwise (p : Params) (pass : Bool) (cand : HeaderConfig) (s : State) :
    BlockwiseAt (applyHeader p pass cand) s := by
  refine .ite (c := fun _ => pass = true) (fun _ => Iff.rfl) (fun _ => ?_) fun _ => ?_
  · refine .ite (c := fun _ => tableValid cand = true) (fun _ => Iff.rfl) (fun _ => .of_eq fun _ => rfl) fun _ => ?_
    exact (BlockwiseAt.of_eq (f := fun t => { t with failRun := 0, syncState := .locked }) fun _ => rfl).comp <|
      (raise_blockwise _ _).comp (.of_eq fun _ => rfl)
  · obtain ⟨e, r, h⟩ := raise_blockwise .headerIntegrity s
    refine ⟨e, r, fun v => ?_⟩
    have hn : nextFailRun (s.withHost v) = nextFailRun s := rfl
    simp only [headerFailed, hn, h]
    split <;> rfl

theorem applyRs_blockwise (corr nunc : Nat) (s : State) : BlockwiseAt (applyRs corr nunc) s :=
  (BlockwiseAt.ite (c := fun _ => 0 < nunc) (fun _ => Iff.rfl) (fun _ => raise_blockwise _ s) fun _ => .self s).comp
    (.of_eq fun _ => rfl)

theorem extractAus_blockwise (hdr : Byte) (aus : List AuRecord) (s : State) : BlockwiseAt (extractAus hdr aus) s :=
  (emitAll_blockwise _ s).comp (.of_eq fun _ => rfl)

theorem applyAus_blockwise (use : Option HeaderConfig) (aus : List AuRecord) (s : State) :
    BlockwiseAt (applyAus use aus) s := by
  cases use with
  | none => exact .self s
  | some h =>
    exact (extractAus_blockwise h.hdr aus s).comp
      (BlockwiseAt.of_eq (f := fun t => { t with nominalAus := BitVec.ofNat 3 h.n }) fun _ => rfl)

theorem reportSuperframe_blockwise (p : Params) (outcome : SfOutcome) (corr nunc nfwd ninv ok tot : Nat) (s : State) :
    BlockwiseAt (reportSuperframe p outcome corr nunc nfwd ninv ok tot) s :=
  ⟨[superframeStatusEvent outcome.code corr nunc nfwd ninv s.syncState.code s.failRun,
      successRateEvent (successRateUpdate p ok tot (countSuperframe s)).successRate], [], fun v => by
    simp [reportSuperframe, successRateUpdate, countSuperframe, HostView.append, emit, State.withHost]⟩

theorem superframe_blockwise (p : Params) (s : State) : BlockwiseAt (superframe p) s := by
  let rs := rsDecode s.subchannel s.window
  let pass := headerPasses p s.window rs.data
  let cand := parseHeader s.subchannel rs.data
  let d := decideHeader p pass cand s
  let aus := match d.use with
    | some h => auRecords s.subchannel rs.data rs.unc h
    | none => []
  let tot := match d.use with
    | some h => h.n
    | none => max s.nominalAus.toNat 1
  obtain ⟨e, r, h⟩ : BlockwiseAt (fun t => setFrames (nextFrames p d.outcome s.frames)
      (reportSuperframe p d.outcome rs.corr (rs.unc.countP id) aus.length (invalidAus aus)
        (aus.length - invalidAus aus) tot
        (applyAus d.use aus (applyRs rs.corr (rs.unc.countP id) (applyHeader p pass cand t))))) s :=
    (applyHeader_blockwise p pass cand s).comp <| (applyRs_blockwise _ _ _).comp <|
      (applyAus_blockwise _ _ _).comp <| (reportSuperframe_blockwise _ _ _ _ _ _ _ _ _).comp (.of_eq fun _ => rfl)
  exact ⟨e, r, h⟩

theorem acceptFrame_blockwise (p : Params) (frame : List Byte) (s : State) : BlockwiseAt (acceptFrame p frame) s :=
  ((processPad_blockwise p frame s).comp (BlockwiseAt.of_eq (f := fun t => setFrames (t.frames ++ [frame]) t)
    fun _ => rfl)).comp <|
    .ite (c := fun u => u.frames.length = Config.framesPerSf) (fun _ => Iff.rfl) (fun _ => superframe_blockwise p _)
      fun _ => .self _

theorem framingError_blockwise (len : Nat) (s : State) : BlockwiseAt (framingError len) s := by
  obtain ⟨e, r, h⟩ := (raise_blockwise (.framing len) s).comp
    (emit_blockwise (framingErrorEvent len (expectedFrameLen s)) _)
  exact ⟨e, r, fun v => congrArg countFrameErr (h v)⟩

theorem emitCountersIfChanged_blockwise (c0 : Counters) (s : State) : BlockwiseAt (emitCountersIfChanged c0) s :=
  .ite (c := fun t => reportedCounters t.counters = reportedCounters c0) (fun _ => Iff.rfl) (fun _ => .self s) fun _ => by
    obtain ⟨e, r, h⟩ := emit_blockwise (countersEvent s.counters) s
    exact ⟨e, r, h⟩

theorem addFrame_blockwise (p : Params) (frame : List Byte) (s : State) : BlockwiseAt (addFrame p frame) s := by
  have hc : ∀ v, frameAccepted frame.length (s.withHost v) = frameAccepted frame.length s := fun _ => rfl
  obtain ⟨e, r, h⟩ := (BlockwiseAt.ite (c := fun t => frameAccepted frame.length t = true) (fun v => by rw [hc])
    (fun _ => acceptFrame_blockwise p frame s) fun _ => framingError_blockwise frame.length s).comp
    (emitCountersIfChanged_blockwise s.counters _)
  exact ⟨e, r, h⟩

/-- What `exec` answers, at any host view: the next state of the block, with its events and errors appended. -/
theorem exec_withHost (i : Instr) (s : State) :
    ∃ t events errors, ∀ v, exec i (s.withHost v) = .next (State.withHost t (v.append events errors)) := by
  have h : ∀ f : State → State, BlockwiseAt f s → ∃ t events errors, ∀ v,
      (.next (f (s.withHost v)) : Host.Outcome State Fault Refusal) = .next (State.withHost t (v.append events errors)) :=
    fun f ⟨e, r, hf⟩ => ⟨f s, e, r, fun v => by rw [hf]⟩
  cases i with
  | nop rsv arg => exact h _ (checkRsv_blockwise _ _ (.self s))
  | config rsv bitrate => exact h _ (checkRsv_blockwise _ _ (config_blockwise _ _ s))
  | channelReset rsv arg => exact h _ (checkRsv_blockwise _ _ (sessionReset_blockwise s))
  | addFrame rsv payload => exact h _ (checkRsv_blockwise _ _ (addFrame_blockwise _ _ s))
  | readReg rsv arg => exact h _ (checkRsv_blockwise _ _ (readReg_blockwise _ _ s))
  | snapshot rsv arg => exact h _ (checkRsv_blockwise _ _ (snapshot_blockwise s))
  | readLabel rsv arg => exact h _ (checkRsv_blockwise _ _ (readLabel_blockwise s))
  | reserved07 rsv arg => exact h _ (commandError_blockwise _ _ s)
  | reserved08 low rsv arg => exact h _ (commandError_blockwise _ _ s)
  | reserved10 low rsv arg => exact h _ (commandError_blockwise _ _ s)
  | reserved20 low rsv arg => exact h _ (commandError_blockwise _ _ s)
  | reserved40 low rsv arg => exact h _ (commandError_blockwise _ _ s)
  | reserved80 low rsv arg => exact h _ (commandError_blockwise _ _ s)

end Sys2Proof.Machine
end

