-- ==== Sys2Proof/Laws/Decode.lean ====
section
/-! SUPPORT. What the decoder reads from a word and what the encoder writes, row by row of the opcode map (R80, R81). -/

namespace Sys2Proof

/-- A property of both branches is a property of the choice. -/
theorem ite_elim {α : Type} {P : α → Prop} {c : Prop} [Decidable c] {a b : α} (ha : c → P a) (hb : ¬c → P b) :
    P (if c then a else b) := by
  split
  · exact ha ‹_›
  · exact hb ‹_›

/-- The opcode of a reserved row comes back from the row's free bits. -/
theorem reserved_opcode (op : Byte) :
    (¬op < 0x08 → op < 0x10 → 0x08 ||| (op.setWidth 3).setWidth 8 = op) ∧
    (¬op < 0x10 → op < 0x20 → 0x10 ||| (op.setWidth 4).setWidth 8 = op) ∧
    (¬op < 0x20 → op < 0x40 → 0x20 ||| (op.setWidth 5).setWidth 8 = op) ∧
    (¬op < 0x40 → op < 0x80 → 0x40 ||| (op.setWidth 6).setWidth 8 = op) ∧
    (¬op < 0x80 → 0x80 ||| (op.setWidth 7).setWidth 8 = op) := by
  revert op
  decide +kernel

/-- An opcode that is none of the first eight is at least 8. -/
theorem not_lt_eight (op : Byte) : op ≠ 0 → op ≠ 1 → op ≠ 2 → op ≠ 3 → op ≠ 4 → op ≠ 5 → op ≠ 6 → op ≠ 7 → ¬op < 8 := by
  revert op
  decide +kernel

/-- The fields of a decoded word are those of the word (R80, R81). -/
theorem decodeWord_fields (op rsv : Byte) (arg : Half) (h3 : op ≠ 0x03) :
    (decodeWord op rsv arg).opcode = op ∧ (decodeWord op rsv arg).rsv = rsv ∧ (decodeWord op rsv arg).arg = arg ∧
      (decodeWord op rsv arg).payload = [] ∧ (decodeWord op rsv arg).wellFormed = true := by
  obtain ⟨r08, r10, r20, r40, r80⟩ := reserved_opcode op
  unfold decodeWord
  let P (i : Instr) : Prop := i.opcode = op ∧ i.rsv = rsv ∧ i.arg = arg ∧ i.payload = [] ∧ i.wellFormed = true
  refine ite_elim (P := P) (fun h => ⟨h.symm, rfl, rfl, rfl, rfl⟩) fun n0 => ?_
  refine ite_elim (P := P) (fun h => ⟨h.symm, rfl, rfl, rfl, rfl⟩) fun n1 => ?_
  refine ite_elim (P := P) (fun h => ⟨h.symm, rfl, rfl, rfl, rfl⟩) fun n2 => ?_
  refine ite_elim (P := P) (fun h => absurd h h3) fun n3 => ?_
  refine ite_elim (P := P) (fun h => ⟨h.symm, rfl, rfl, rfl, rfl⟩) fun n4 => ?_
  refine ite_elim (P := P) (fun h => ⟨h.symm, rfl, rfl, rfl, rfl⟩) fun n5 => ?_
  refine ite_elim (P := P) (fun h => ⟨h.symm, rfl, rfl, rfl, rfl⟩) fun n6 => ?_
  refine ite_elim (P := P) (fun h => ⟨h.symm, rfl, rfl, rfl, rfl⟩) fun n7 => ?_
  refine ite_elim (P := P) (fun h => ⟨r08 (not_lt_eight op n0 n1 n2 n3 n4 n5 n6 n7) h, rfl, rfl, rfl, rfl⟩) fun n10 => ?_
  refine ite_elim (P := P) (fun h => ⟨r10 n10 h, rfl, rfl, rfl, rfl⟩) fun n20 => ?_
  refine ite_elim (P := P) (fun h => ⟨r20 n20 h, rfl, rfl, rfl, rfl⟩) fun n40 => ?_
  exact ite_elim (P := P) (fun h => ⟨r40 n40 h, rfl, rfl, rfl, rfl⟩) fun n80 => ⟨r80 n80, rfl, rfl, rfl, rfl⟩

/-- An opcode of at least 8 is none of the defined ones. -/
theorem ne_of_not_lt (op : Byte) (h : ¬op < 0x08) :
    op ≠ 0 ∧ op ≠ 1 ∧ op ≠ 2 ∧ op ≠ 3 ∧ op ≠ 4 ∧ op ≠ 5 ∧ op ≠ 6 ∧ op ≠ 7 := by
  revert op
  decide +kernel

/-- Past the first eight opcodes the decoder looks at the ranges alone (R81, R84). -/
theorem decodeWord_reserved (op rsv : Byte) (arg : Half) (h : ¬op < 0x08) :
    decodeWord op rsv arg =
      if op < 0x10 then .reserved08 (op.setWidth 3) rsv arg
      else if op < 0x20 then .reserved10 (op.setWidth 4) rsv arg
      else if op < 0x40 then .reserved20 (op.setWidth 5) rsv arg
      else if op < 0x80 then .reserved40 (op.setWidth 6) rsv arg
      else .reserved80 (op.setWidth 7) rsv arg := by
  obtain ⟨h0, h1, h2, h3, h4, h5, h6, h7⟩ := ne_of_not_lt op h
  rw [decodeWord, if_neg h0, if_neg h1, if_neg h2, if_neg h3, if_neg h4, if_neg h5, if_neg h6, if_neg h7]

/-- The opcode of a reserved row's command: its range, and its free bits. -/
theorem reserved_range :
    (∀ low : BitVec 3, ¬(0x08 ||| low.setWidth 8 : Byte) < 0x08 ∧ (0x08 ||| low.setWidth 8 : Byte) < 0x10 ∧
      (0x08 ||| low.setWidth 8 : Byte).setWidth 3 = low) ∧
    (∀ low : BitVec 4, ¬(0x10 ||| low.setWidth 8 : Byte) < 0x08 ∧ ¬(0x10 ||| low.setWidth 8 : Byte) < 0x10 ∧
      (0x10 ||| low.setWidth 8 : Byte) < 0x20 ∧ (0x10 ||| low.setWidth 8 : Byte).setWidth 4 = low) ∧
    (∀ low : BitVec 5, ¬(0x20 ||| low.setWidth 8 : Byte) < 0x08 ∧ ¬(0x20 ||| low.setWidth 8 : Byte) < 0x10 ∧
      ¬(0x20 ||| low.setWidth 8 : Byte) < 0x20 ∧ (0x20 ||| low.setWidth 8 : Byte) < 0x40 ∧
      (0x20 ||| low.setWidth 8 : Byte).setWidth 5 = low) ∧
    (∀ low : BitVec 6, ¬(0x40 ||| low.setWidth 8 : Byte) < 0x08 ∧ ¬(0x40 ||| low.setWidth 8 : Byte) < 0x10 ∧
      ¬(0x40 ||| low.setWidth 8 : Byte) < 0x20 ∧ ¬(0x40 ||| low.setWidth 8 : Byte) < 0x40 ∧
      (0x40 ||| low.setWidth 8 : Byte) < 0x80 ∧ (0x40 ||| low.setWidth 8 : Byte).setWidth 6 = low) ∧
    (∀ low : BitVec 7, ¬(0x80 ||| low.setWidth 8 : Byte) < 0x08 ∧ ¬(0x80 ||| low.setWidth 8 : Byte) < 0x10 ∧
      ¬(0x80 ||| low.setWidth 8 : Byte) < 0x20 ∧ ¬(0x80 ||| low.setWidth 8 : Byte) < 0x40 ∧
      ¬(0x80 ||| low.setWidth 8 : Byte) < 0x80 ∧ (0x80 ||| low.setWidth 8 : Byte).setWidth 7 = low) := by
  decide +kernel

/-- The decoder reads back the word of any command but ADD_FRAME. -/
theorem decodeWord_of_instr (i : Instr) (h3 : i.opcode ≠ 0x03) : decodeWord i.opcode i.rsv i.arg = i := by
  cases i with
  | addFrame rsv payload => exact absurd rfl h3
  | reserved08 low rsv arg =>
    obtain ⟨h8, h, e⟩ := reserved_range.1 low
    rw [Instr.opcode, decodeWord_reserved _ _ _ h8, if_pos h, e]
    rfl
  | reserved10 low rsv arg =>
    obtain ⟨h8, h10, h, e⟩ := reserved_range.2.1 low
    rw [Instr.opcode, decodeWord_reserved _ _ _ h8, if_neg h10, if_pos h, e]
    rfl
  | reserved20 low rsv arg =>
    obtain ⟨h8, h10, h20, h, e⟩ := reserved_range.2.2.1 low
    rw [Instr.opcode, decodeWord_reserved _ _ _ h8, if_neg h10, if_neg h20, if_pos h, e]
    rfl
  | reserved40 low rsv arg =>
    obtain ⟨h8, h10, h20, h40, h, e⟩ := reserved_range.2.2.2.1 low
    rw [Instr.opcode, decodeWord_reserved _ _ _ h8, if_neg h10, if_neg h20, if_neg h40, if_pos h, e]
    rfl
  | reserved80 low rsv arg =>
    obtain ⟨h8, h10, h20, h40, h80, e⟩ := reserved_range.2.2.2.2 low
    rw [Instr.opcode, decodeWord_reserved _ _ _ h8, if_neg h10, if_neg h20, if_neg h40, if_neg h80, e]
    rfl
  | _ => rfl

/-- The opcode ranges of the defined rows and of the reserved ones (R81, R84). -/
theorem opcode_range (i : Instr) :
    (i.opcode.toNat ≤ 0x06 ↔
      match i with
      | .nop _ _ | .config _ _ | .channelReset _ _ | .addFrame _ _ | .readReg _ _ | .snapshot _ _ | .readLabel _ _ => True
      | .reserved07 _ _ | .reserved08 _ _ _ | .reserved10 _ _ _ | .reserved20 _ _ _ | .reserved40 _ _ _
      | .reserved80 _ _ _ => False) := by
  cases i with
  | reserved08 low _ _ => simp only [Instr.opcode, iff_false]; revert low; decide +kernel
  | reserved10 low _ _ => simp only [Instr.opcode, iff_false]; revert low; decide +kernel
  | reserved20 low _ _ => simp only [Instr.opcode, iff_false]; revert low; decide +kernel
  | reserved40 low _ _ => simp only [Instr.opcode, iff_false]; revert low; decide +kernel
  | reserved80 low _ _ => simp only [Instr.opcode, iff_false]; revert low; decide +kernel
  | _ => simp [Instr.opcode]

end Sys2Proof
end

