-- ==== Sys2Proof/Laws/Step.lean ====
section
/-! SUPPORT. What a step that has a next state did, and what a command leaves of the host interface. -/

namespace Sys2Proof.Machine

/-- The state at which a step executes its command: the command's bytes consumed, and the records accepted if the consumer
is ready. -/
def State.afterFetch (s : State) (rest : List Byte) : State :=
  { s with
    input := rest
    accepted := if s.acceptsNow then s.output.length else s.accepted }

/-- Fetching, in one equation. -/
theorem fetch_consumerTakes (s : State) :
    fetch (consumerTakes s) =
      if s.acceptsNow = false ∧ s.accepted < s.output.length then .hold .awaitingConsumer
      else match decode s.input with
        | .ok (i, rest) => .run i (s.afterFetch rest)
        | .error e => .hold (holdOf e) := by
  rcases hd : decode s.input with e | ⟨i, rest⟩ <;> by_cases hr : s.acceptsNow = true <;>
    by_cases ha : s.accepted < s.output.length <;>
      simp [fetch, consumerTakes, recordPending, State.afterFetch, hr, ha, hd]

/-- A step with a next state decoded a command and executed it. -/
theorem step_next_cases {s t : State} (h : step s = .next t) :
    ∃ i rest, decode s.input = .ok (i, rest) ∧ ¬(s.acceptsNow = false ∧ s.accepted < s.output.length) ∧
      exec i (s.afterFetch rest) = .next t := by
  unfold step at h
  rw [fetch_consumerTakes] at h
  by_cases hp : s.acceptsNow = false ∧ s.accepted < s.output.length
  · rw [if_pos hp] at h
    cases h
  · rw [if_neg hp] at h
    rcases hd : decode s.input with e | ⟨i, rest⟩
    · rw [hd] at h
      cases h
    · rw [hd] at h
      exact ⟨i, rest, rfl, hp, h⟩

/-- What a command leaves of the host interface, and that it only appends to the two records. -/
theorem exec_next_host {i : Instr} {s t : State} (h : exec i s = .next t) :
    t.input = s.input ∧ t.acceptsNow = s.acceptsNow ∧ t.accepted = s.accepted ∧
      ∃ events errors, t.output = s.output ++ events ∧ t.raised = s.raised ++ errors := by
  obtain ⟨u, events, errors, hv⟩ := exec_withHost i s
  have ht := hv s.hostView
  rw [withHost_hostView, h] at ht
  cases ht
  exact ⟨rfl, rfl, rfl, events, errors, rfl, rfl⟩

/-- Bytes after a command do not change its decoding. -/
theorem decode_append {bytes rest : List Byte} {i : Instr} (more : List Byte) (h : decode bytes = .ok (i, rest)) :
    decode (bytes ++ more) = .ok (i, rest ++ more) := by
  rcases word_cases bytes with hs | ⟨op, rsv, a1, a0, tail, rfl⟩
  · rw [decode_short _ hs] at h
    cases h
  · rw [decode_word] at h
    simp only [List.cons_append, decode_word]
    split_ifs at h with h3 hl
    · cases h
      rw [if_pos h3, if_pos (by simp; omega), List.take_append_of_le_length hl, List.drop_append_of_le_length hl]
    · cases h
      rw [if_neg h3]

end Sys2Proof.Machine
end

