-- ==== Sys2Proof/Laws/Superframe.lean ====
section
/-! SUPPORT. What the superframe pipeline leaves alone, stage by stage, and where each field it writes comes from (R157 to
R167). -/

namespace Sys2Proof.Machine

/-! Each stage keeps the fields it does not write. -/

@[simp] theorem applyHeader_cfgBitrate (p : Params) (pass : Bool) (cand : HeaderConfig) (s : State) : (applyHeader p pass cand s).cfgBitrate = s.cfgBitrate := by
  unfold applyHeader headerPassed headerFailed; repeat' split
  all_goals rfl
@[simp] theorem applyHeader_fatal (p : Params) (pass : Bool) (cand : HeaderConfig) (s : State) : (applyHeader p pass cand s).fatal = s.fatal := by
  unfold applyHeader headerPassed headerFailed; repeat' split
  all_goals rfl
@[simp] theorem applyHeader_frames (p : Params) (pass : Bool) (cand : HeaderConfig) (s : State) : (applyHeader p pass cand s).frames = s.frames := by
  unfold applyHeader headerPassed headerFailed; repeat' split
  all_goals rfl
@[simp] theorem applyHeader_nominalAus (p : Params) (pass : Bool) (cand : HeaderConfig) (s : State) : (applyHeader p pass cand s).nominalAus = s.nominalAus := by
  unfold applyHeader headerPassed headerFailed; repeat' split
  all_goals rfl
@[simp] theorem applyHeader_srHist (p : Params) (pass : Bool) (cand : HeaderConfig) (s : State) : (applyHeader p pass cand s).srHist = s.srHist := by
  unfold applyHeader headerPassed headerFailed; repeat' split
  all_goals rfl
@[simp] theorem applyHeader_successRate (p : Params) (pass : Bool) (cand : HeaderConfig) (s : State) : (applyHeader p pass cand s).successRate = s.successRate := by
  unfold applyHeader headerPassed headerFailed; repeat' split
  all_goals rfl
@[simp] theorem applyHeader_xpadPrevLen (p : Params) (pass : Bool) (cand : HeaderConfig) (s : State) : (applyHeader p pass cand s).xpadPrevLen = s.xpadPrevLen := by
  unfold applyHeader headerPassed headerFailed; repeat' split
  all_goals rfl
@[simp] theorem applyHeader_xpadPrevApp (p : Params) (pass : Bool) (cand : HeaderConfig) (s : State) : (applyHeader p pass cand s).xpadPrevApp = s.xpadPrevApp := by
  unfold applyHeader headerPassed headerFailed; repeat' split
  all_goals rfl
@[simp] theorem applyHeader_shortPrevApp (p : Params) (pass : Bool) (cand : HeaderConfig) (s : State) : (applyHeader p pass cand s).shortPrevApp = s.shortPrevApp := by
  unfold applyHeader headerPassed headerFailed; repeat' split
  all_goals rfl
@[simp] theorem applyHeader_dgActive (p : Params) (pass : Bool) (cand : HeaderConfig) (s : State) : (applyHeader p pass cand s).dgActive = s.dgActive := by
  unfold applyHeader headerPassed headerFailed; repeat' split
  all_goals rfl
@[simp] theorem applyHeader_dgBuf (p : Params) (pass : Bool) (cand : HeaderConfig) (s : State) : (applyHeader p pass cand s).dgBuf = s.dgBuf := by
  unfold applyHeader headerPassed headerFailed; repeat' split
  all_goals rfl
@[simp] theorem applyHeader_asm (p : Params) (pass : Bool) (cand : HeaderConfig) (s : State) : (applyHeader p pass cand s).asm = s.asm := by
  unfold applyHeader headerPassed headerFailed; repeat' split
  all_goals rfl
@[simp] theorem applyHeader_label (p : Params) (pass : Bool) (cand : HeaderConfig) (s : State) : (applyHeader p pass cand s).label = s.label := by
  unfold applyHeader headerPassed headerFailed; repeat' split
  all_goals rfl
@[simp] theorem applyHeader_input (p : Params) (pass : Bool) (cand : HeaderConfig) (s : State) : (applyHeader p pass cand s).input = s.input := by
  unfold applyHeader headerPassed headerFailed; repeat' split
  all_goals rfl
@[simp] theorem applyHeader_output (p : Params) (pass : Bool) (cand : HeaderConfig) (s : State) : (applyHeader p pass cand s).output = s.output := by
  unfold applyHeader headerPassed headerFailed; repeat' split
  all_goals rfl
@[simp] theorem applyHeader_accepted (p : Params) (pass : Bool) (cand : HeaderConfig) (s : State) : (applyHeader p pass cand s).accepted = s.accepted := by
  unfold applyHeader headerPassed headerFailed; repeat' split
  all_goals rfl
@[simp] theorem applyHeader_acceptsNow (p : Params) (pass : Bool) (cand : HeaderConfig) (s : State) : (applyHeader p pass cand s).acceptsNow = s.acceptsNow := by
  unfold applyHeader headerPassed headerFailed; repeat' split
  all_goals rfl

@[simp] theorem applyRs_cfgBitrate (corr nunc : Nat) (s : State) : (applyRs corr nunc s).cfgBitrate = s.cfgBitrate := by
  unfold applyRs; split <;> rfl
@[simp] theorem applyRs_fatal (corr nunc : Nat) (s : State) : (applyRs corr nunc s).fatal = s.fatal := by
  unfold applyRs; split <;> rfl
@[simp] theorem applyRs_frames (corr nunc : Nat) (s : State) : (applyRs corr nunc s).frames = s.frames := by
  unfold applyRs; split <;> rfl
@[simp] theorem applyRs_syncState (corr nunc : Nat) (s : State) : (applyRs corr nunc s).syncState = s.syncState := by
  unfold applyRs; split <;> rfl
@[simp] theorem applyRs_failRun (corr nunc : Nat) (s : State) : (applyRs corr nunc s).failRun = s.failRun := by
  unfold applyRs; split <;> rfl
@[simp] theorem applyRs_lastGood (corr nunc : Nat) (s : State) : (applyRs corr nunc s).lastGood = s.lastGood := by
  unfold applyRs; split <;> rfl
@[simp] theorem applyRs_nominalAus (corr nunc : Nat) (s : State) : (applyRs corr nunc s).nominalAus = s.nominalAus := by
  unfold applyRs; split <;> rfl
@[simp] theorem applyRs_srHist (corr nunc : Nat) (s : State) : (applyRs corr nunc s).srHist = s.srHist := by
  unfold applyRs; split <;> rfl
@[simp] theorem applyRs_successRate (corr nunc : Nat) (s : State) : (applyRs corr nunc s).successRate = s.successRate := by
  unfold applyRs; split <;> rfl
@[simp] theorem applyRs_xpadPrevLen (corr nunc : Nat) (s : State) : (applyRs corr nunc s).xpadPrevLen = s.xpadPrevLen := by
  unfold applyRs; split <;> rfl
@[simp] theorem applyRs_xpadPrevApp (corr nunc : Nat) (s : State) : (applyRs corr nunc s).xpadPrevApp = s.xpadPrevApp := by
  unfold applyRs; split <;> rfl
@[simp] theorem applyRs_shortPrevApp (corr nunc : Nat) (s : State) : (applyRs corr nunc s).shortPrevApp = s.shortPrevApp := by
  unfold applyRs; split <;> rfl
@[simp] theorem applyRs_dgActive (corr nunc : Nat) (s : State) : (applyRs corr nunc s).dgActive = s.dgActive := by
  unfold applyRs; split <;> rfl
@[simp] theorem applyRs_dgBuf (corr nunc : Nat) (s : State) : (applyRs corr nunc s).dgBuf = s.dgBuf := by
  unfold applyRs; split <;> rfl
@[simp] theorem applyRs_asm (corr nunc : Nat) (s : State) : (applyRs corr nunc s).asm = s.asm := by
  unfold applyRs; split <;> rfl
@[simp] theorem applyRs_label (corr nunc : Nat) (s : State) : (applyRs corr nunc s).label = s.label := by
  unfold applyRs; split <;> rfl
@[simp] theorem applyRs_input (corr nunc : Nat) (s : State) : (applyRs corr nunc s).input = s.input := by
  unfold applyRs; split <;> rfl
@[simp] theorem applyRs_output (corr nunc : Nat) (s : State) : (applyRs corr nunc s).output = s.output := by
  unfold applyRs; split <;> rfl
@[simp] theorem applyRs_accepted (corr nunc : Nat) (s : State) : (applyRs corr nunc s).accepted = s.accepted := by
  unfold applyRs; split <;> rfl
@[simp] theorem applyRs_acceptsNow (corr nunc : Nat) (s : State) : (applyRs corr nunc s).acceptsNow = s.acceptsNow := by
  unfold applyRs; split <;> rfl

@[simp] theorem applyAus_cfgBitrate (use : Option HeaderConfig) (aus : List AuRecord) (s : State) : (applyAus use aus s).cfgBitrate = s.cfgBitrate := by
  cases use <;> rfl
@[simp] theorem applyAus_fatal (use : Option HeaderConfig) (aus : List AuRecord) (s : State) : (applyAus use aus s).fatal = s.fatal := by
  cases use <;> rfl
@[simp] theorem applyAus_frames (use : Option HeaderConfig) (aus : List AuRecord) (s : State) : (applyAus use aus s).frames = s.frames := by
  cases use <;> rfl
@[simp] theorem applyAus_syncState (use : Option HeaderConfig) (aus : List AuRecord) (s : State) : (applyAus use aus s).syncState = s.syncState := by
  cases use <;> rfl
@[simp] theorem applyAus_failRun (use : Option HeaderConfig) (aus : List AuRecord) (s : State) : (applyAus use aus s).failRun = s.failRun := by
  cases use <;> rfl
@[simp] theorem applyAus_lastGood (use : Option HeaderConfig) (aus : List AuRecord) (s : State) : (applyAus use aus s).lastGood = s.lastGood := by
  cases use <;> rfl
@[simp] theorem applyAus_srHist (use : Option HeaderConfig) (aus : List AuRecord) (s : State) : (applyAus use aus s).srHist = s.srHist := by
  cases use <;> rfl
@[simp] theorem applyAus_successRate (use : Option HeaderConfig) (aus : List AuRecord) (s : State) : (applyAus use aus s).successRate = s.successRate := by
  cases use <;> rfl
@[simp] theorem applyAus_xpadPrevLen (use : Option HeaderConfig) (aus : List AuRecord) (s : State) : (applyAus use aus s).xpadPrevLen = s.xpadPrevLen := by
  cases use <;> rfl
@[simp] theorem applyAus_xpadPrevApp (use : Option HeaderConfig) (aus : List AuRecord) (s : State) : (applyAus use aus s).xpadPrevApp = s.xpadPrevApp := by
  cases use <;> rfl
@[simp] theorem applyAus_shortPrevApp (use : Option HeaderConfig) (aus : List AuRecord) (s : State) : (applyAus use aus s).shortPrevApp = s.shortPrevApp := by
  cases use <;> rfl
@[simp] theorem applyAus_dgActive (use : Option HeaderConfig) (aus : List AuRecord) (s : State) : (applyAus use aus s).dgActive = s.dgActive := by
  cases use <;> rfl
@[simp] theorem applyAus_dgBuf (use : Option HeaderConfig) (aus : List AuRecord) (s : State) : (applyAus use aus s).dgBuf = s.dgBuf := by
  cases use <;> rfl
@[simp] theorem applyAus_asm (use : Option HeaderConfig) (aus : List AuRecord) (s : State) : (applyAus use aus s).asm = s.asm := by
  cases use <;> rfl
@[simp] theorem applyAus_label (use : Option HeaderConfig) (aus : List AuRecord) (s : State) : (applyAus use aus s).label = s.label := by
  cases use <;> rfl
@[simp] theorem applyAus_input (use : Option HeaderConfig) (aus : List AuRecord) (s : State) : (applyAus use aus s).input = s.input := by
  cases use <;> rfl
@[simp] theorem applyAus_accepted (use : Option HeaderConfig) (aus : List AuRecord) (s : State) : (applyAus use aus s).accepted = s.accepted := by
  cases use <;> rfl
@[simp] theorem applyAus_acceptsNow (use : Option HeaderConfig) (aus : List AuRecord) (s : State) : (applyAus use aus s).acceptsNow = s.acceptsNow := by
  cases use <;> rfl
@[simp] theorem applyAus_raised (use : Option HeaderConfig) (aus : List AuRecord) (s : State) : (applyAus use aus s).raised = s.raised := by
  cases use <;> rfl

@[simp] theorem reportSuperframe_cfgBitrate (p : Params) (outcome : SfOutcome) (corr nunc nfwd ninv ok tot : Nat) (s : State) : (reportSuperframe p outcome corr nunc nfwd ninv ok tot s).cfgBitrate = s.cfgBitrate := by
  unfold reportSuperframe successRateUpdate; rfl
@[simp] theorem reportSuperframe_fatal (p : Params) (outcome : SfOutcome) (corr nunc nfwd ninv ok tot : Nat) (s : State) : (reportSuperframe p outcome corr nunc nfwd ninv ok tot s).fatal = s.fatal := by
  unfold reportSuperframe successRateUpdate; rfl
@[simp] theorem reportSuperframe_frames (p : Params) (outcome : SfOutcome) (corr nunc nfwd ninv ok tot : Nat) (s : State) : (reportSuperframe p outcome corr nunc nfwd ninv ok tot s).frames = s.frames := by
  unfold reportSuperframe successRateUpdate; rfl
@[simp] theorem reportSuperframe_syncState (p : Params) (outcome : SfOutcome) (corr nunc nfwd ninv ok tot : Nat) (s : State) : (reportSuperframe p outcome corr nunc nfwd ninv ok tot s).syncState = s.syncState := by
  unfold reportSuperframe successRateUpdate; rfl
@[simp] theorem reportSuperframe_failRun (p : Params) (outcome : SfOutcome) (corr nunc nfwd ninv ok tot : Nat) (s : State) : (reportSuperframe p outcome corr nunc nfwd ninv ok tot s).failRun = s.failRun := by
  unfold reportSuperframe successRateUpdate; rfl
@[simp] theorem reportSuperframe_lastGood (p : Params) (outcome : SfOutcome) (corr nunc nfwd ninv ok tot : Nat) (s : State) : (reportSuperframe p outcome corr nunc nfwd ninv ok tot s).lastGood = s.lastGood := by
  unfold reportSuperframe successRateUpdate; rfl
@[simp] theorem reportSuperframe_nominalAus (p : Params) (outcome : SfOutcome) (corr nunc nfwd ninv ok tot : Nat) (s : State) : (reportSuperframe p outcome corr nunc nfwd ninv ok tot s).nominalAus = s.nominalAus := by
  unfold reportSuperframe successRateUpdate; rfl
@[simp] theorem reportSuperframe_xpadPrevLen (p : Params) (outcome : SfOutcome) (corr nunc nfwd ninv ok tot : Nat) (s : State) : (reportSuperframe p outcome corr nunc nfwd ninv ok tot s).xpadPrevLen = s.xpadPrevLen := by
  unfold reportSuperframe successRateUpdate; rfl
@[simp] theorem reportSuperframe_xpadPrevApp (p : Params) (outcome : SfOutcome) (corr nunc nfwd ninv ok tot : Nat) (s : State) : (reportSuperframe p outcome corr nunc nfwd ninv ok tot s).xpadPrevApp = s.xpadPrevApp := by
  unfold reportSuperframe successRateUpdate; rfl
@[simp] theorem reportSuperframe_shortPrevApp (p : Params) (outcome : SfOutcome) (corr nunc nfwd ninv ok tot : Nat) (s : State) : (reportSuperframe p outcome corr nunc nfwd ninv ok tot s).shortPrevApp = s.shortPrevApp := by
  unfold reportSuperframe successRateUpdate; rfl
@[simp] theorem reportSuperframe_dgActive (p : Params) (outcome : SfOutcome) (corr nunc nfwd ninv ok tot : Nat) (s : State) : (reportSuperframe p outcome corr nunc nfwd ninv ok tot s).dgActive = s.dgActive := by
  unfold reportSuperframe successRateUpdate; rfl
@[simp] theorem reportSuperframe_dgBuf (p : Params) (outcome : SfOutcome) (corr nunc nfwd ninv ok tot : Nat) (s : State) : (reportSuperframe p outcome corr nunc nfwd ninv ok tot s).dgBuf = s.dgBuf := by
  unfold reportSuperframe successRateUpdate; rfl
@[simp] theorem reportSuperframe_asm (p : Params) (outcome : SfOutcome) (corr nunc nfwd ninv ok tot : Nat) (s : State) : (reportSuperframe p outcome corr nunc nfwd ninv ok tot s).asm = s.asm := by
  unfold reportSuperframe successRateUpdate; rfl
@[simp] theorem reportSuperframe_label (p : Params) (outcome : SfOutcome) (corr nunc nfwd ninv ok tot : Nat) (s : State) : (reportSuperframe p outcome corr nunc nfwd ninv ok tot s).label = s.label := by
  unfold reportSuperframe successRateUpdate; rfl
@[simp] theorem reportSuperframe_input (p : Params) (outcome : SfOutcome) (corr nunc nfwd ninv ok tot : Nat) (s : State) : (reportSuperframe p outcome corr nunc nfwd ninv ok tot s).input = s.input := by
  unfold reportSuperframe successRateUpdate; rfl
@[simp] theorem reportSuperframe_accepted (p : Params) (outcome : SfOutcome) (corr nunc nfwd ninv ok tot : Nat) (s : State) : (reportSuperframe p outcome corr nunc nfwd ninv ok tot s).accepted = s.accepted := by
  unfold reportSuperframe successRateUpdate; rfl
@[simp] theorem reportSuperframe_acceptsNow (p : Params) (outcome : SfOutcome) (corr nunc nfwd ninv ok tot : Nat) (s : State) : (reportSuperframe p outcome corr nunc nfwd ninv ok tot s).acceptsNow = s.acceptsNow := by
  unfold reportSuperframe successRateUpdate; rfl
@[simp] theorem reportSuperframe_raised (p : Params) (outcome : SfOutcome) (corr nunc nfwd ninv ok tot : Nat) (s : State) : (reportSuperframe p outcome corr nunc nfwd ninv ok tot s).raised = s.raised := by
  unfold reportSuperframe successRateUpdate; rfl

@[simp] theorem emitCountersIfChanged_cfgBitrate (c0 : Counters) (s : State) : (emitCountersIfChanged c0 s).cfgBitrate = s.cfgBitrate := by
  unfold emitCountersIfChanged; split <;> rfl
@[simp] theorem emitCountersIfChanged_fatal (c0 : Counters) (s : State) : (emitCountersIfChanged c0 s).fatal = s.fatal := by
  unfold emitCountersIfChanged; split <;> rfl
@[simp] theorem emitCountersIfChanged_frames (c0 : Counters) (s : State) : (emitCountersIfChanged c0 s).frames = s.frames := by
  unfold emitCountersIfChanged; split <;> rfl
@[simp] theorem emitCountersIfChanged_syncState (c0 : Counters) (s : State) : (emitCountersIfChanged c0 s).syncState = s.syncState := by
  unfold emitCountersIfChanged; split <;> rfl
@[simp] theorem emitCountersIfChanged_failRun (c0 : Counters) (s : State) : (emitCountersIfChanged c0 s).failRun = s.failRun := by
  unfold emitCountersIfChanged; split <;> rfl
@[simp] theorem emitCountersIfChanged_lastGood (c0 : Counters) (s : State) : (emitCountersIfChanged c0 s).lastGood = s.lastGood := by
  unfold emitCountersIfChanged; split <;> rfl
@[simp] theorem emitCountersIfChanged_nominalAus (c0 : Counters) (s : State) : (emitCountersIfChanged c0 s).nominalAus = s.nominalAus := by
  unfold emitCountersIfChanged; split <;> rfl
@[simp] theorem emitCountersIfChanged_counters (c0 : Counters) (s : State) : (emitCountersIfChanged c0 s).counters = s.counters := by
  unfold emitCountersIfChanged; split <;> rfl
@[simp] theorem emitCountersIfChanged_srHist (c0 : Counters) (s : State) : (emitCountersIfChanged c0 s).srHist = s.srHist := by
  unfold emitCountersIfChanged; split <;> rfl
@[simp] theorem emitCountersIfChanged_successRate (c0 : Counters) (s : State) : (emitCountersIfChanged c0 s).successRate = s.successRate := by
  unfold emitCountersIfChanged; split <;> rfl
@[simp] theorem emitCountersIfChanged_xpadPrevLen (c0 : Counters) (s : State) : (emitCountersIfChanged c0 s).xpadPrevLen = s.xpadPrevLen := by
  unfold emitCountersIfChanged; split <;> rfl
@[simp] theorem emitCountersIfChanged_xpadPrevApp (c0 : Counters) (s : State) : (emitCountersIfChanged c0 s).xpadPrevApp = s.xpadPrevApp := by
  unfold emitCountersIfChanged; split <;> rfl
@[simp] theorem emitCountersIfChanged_shortPrevApp (c0 : Counters) (s : State) : (emitCountersIfChanged c0 s).shortPrevApp = s.shortPrevApp := by
  unfold emitCountersIfChanged; split <;> rfl
@[simp] theorem emitCountersIfChanged_dgActive (c0 : Counters) (s : State) : (emitCountersIfChanged c0 s).dgActive = s.dgActive := by
  unfold emitCountersIfChanged; split <;> rfl
@[simp] theorem emitCountersIfChanged_dgBuf (c0 : Counters) (s : State) : (emitCountersIfChanged c0 s).dgBuf = s.dgBuf := by
  unfold emitCountersIfChanged; split <;> rfl
@[simp] theorem emitCountersIfChanged_asm (c0 : Counters) (s : State) : (emitCountersIfChanged c0 s).asm = s.asm := by
  unfold emitCountersIfChanged; split <;> rfl
@[simp] theorem emitCountersIfChanged_label (c0 : Counters) (s : State) : (emitCountersIfChanged c0 s).label = s.label := by
  unfold emitCountersIfChanged; split <;> rfl
@[simp] theorem emitCountersIfChanged_input (c0 : Counters) (s : State) : (emitCountersIfChanged c0 s).input = s.input := by
  unfold emitCountersIfChanged; split <;> rfl
@[simp] theorem emitCountersIfChanged_accepted (c0 : Counters) (s : State) : (emitCountersIfChanged c0 s).accepted = s.accepted := by
  unfold emitCountersIfChanged; split <;> rfl
@[simp] theorem emitCountersIfChanged_acceptsNow (c0 : Counters) (s : State) : (emitCountersIfChanged c0 s).acceptsNow = s.acceptsNow := by
  unfold emitCountersIfChanged; split <;> rfl
@[simp] theorem emitCountersIfChanged_raised (c0 : Counters) (s : State) : (emitCountersIfChanged c0 s).raised = s.raised := by
  unfold emitCountersIfChanged; split <;> rfl

/-! The counters, stage by stage. -/

theorem applyHeader_counters (p : Params) (pass : Bool) (cand : HeaderConfig) (s : State) :
    (applyHeader p pass cand s).counters =
      if pass = true ∧ tableValid cand = true then s.counters
      else { s.counters with frameErr := satAdd32 s.counters.frameErr 1 } := by
  cases pass <;> by_cases h : tableValid cand = true <;> simp [applyHeader, headerPassed, headerFailed, h] <;> split <;> rfl

@[simp] theorem applyRs_counters (corr nunc : Nat) (s : State) :
    (applyRs corr nunc s).counters = { s.counters with
      rsCorr := satAdd32 s.counters.rsCorr corr
      rsUncorr := satAdd32 s.counters.rsUncorr nunc } := by
  unfold applyRs
  split <;> rfl

@[simp] theorem applyAus_counters_none (aus : List AuRecord) (s : State) : (applyAus none aus s).counters = s.counters := rfl

@[simp] theorem applyAus_counters_some (h : HeaderConfig) (aus : List AuRecord) (s : State) :
    (applyAus (some h) aus s).counters = { s.counters with
      auErr := satAdd32 s.counters.auErr (invalidAus aus)
      auFwd := satAdd32 s.counters.auFwd aus.length } := rfl

@[simp] theorem reportSuperframe_counters (p : Params) (outcome : SfOutcome) (corr nunc nfwd ninv ok tot : Nat) (s : State) :
    (reportSuperframe p outcome corr nunc nfwd ninv ok tot s).counters =
      { s.counters with sfCount := satAdd32 s.counters.sfCount 1 } := by
  unfold reportSuperframe successRateUpdate; rfl

/-! The header decision. -/

theorem applyHeader_pass (p : Params) (cand : HeaderConfig) (s : State) :
    (applyHeader p true cand s).syncState = .locked ∧ (applyHeader p true cand s).failRun = 0 ∧
      (applyHeader p true cand s).lastGood = if tableValid cand = true then LastGood.store cand else s.lastGood := by
  unfold applyHeader headerPassed
  rw [if_pos rfl]
  split <;> exact ⟨rfl, rfl, rfl⟩

theorem applyHeader_fail (p : Params) (cand : HeaderConfig) (s : State) :
    (applyHeader p false cand s).failRun = nextFailRun s ∧
      (applyHeader p false cand s).syncState =
        (if p.desyncThreshold ≤ (nextFailRun s).toNat then .desync else s.syncState) ∧
      (applyHeader p false cand s).lastGood =
        if p.desyncThreshold ≤ (nextFailRun s).toNat then LastGood.cleared else s.lastGood := by
  unfold applyHeader headerFailed
  rw [if_neg (by decide)]
  split <;> exact ⟨rfl, rfl, rfl⟩

/-- What a header decides, and the code that its outcome is reported with (R157, R159 to R162). -/
theorem decideHeader_eq (p : Params) (pass : Bool) (cand : HeaderConfig) (s : State) :
    (decideHeader p pass cand s).use =
      (if pass = true then if tableValid cand = true then some cand else none
      else if s.lastGood.valid = true ∧ min (s.failRun.toNat + 1) 255 < p.desyncThreshold then some s.lastGood.config
      else none) ∧
    (decideHeader p pass cand s).outcome.code =
      if pass = true then if tableValid cand = true then 0 else 3
      else if s.lastGood.valid = true ∧ min (s.failRun.toNat + 1) 255 < p.desyncThreshold then 1 else 2 := by
  simp only [decideHeader, nextFailRun, toNat_satAdd8, Bool.and_eq_true, decide_eq_true_eq]
  split_ifs <;> exact ⟨rfl, rfl⟩

/-- A decision that uses a configuration uses the candidate that passed or the sticky one. -/
theorem decideHeader_use {p : Params} {pass : Bool} {cand h : HeaderConfig} {s : State}
    (hu : (decideHeader p pass cand s).use = some h) :
    (pass = true ∧ tableValid cand = true ∧ h = cand) ∨
    (pass = false ∧ s.lastGood.valid = true ∧ (nextFailRun s).toNat < p.desyncThreshold ∧ h = s.lastGood.config) := by
  unfold decideHeader at hu
  cases pass
  · right
    by_cases hc : (s.lastGood.valid && decide ((nextFailRun s).toNat < p.desyncThreshold)) = true
    · simp only [Bool.false_eq_true, if_false, hc, if_true, Option.some.injEq] at hu
      simp only [Bool.and_eq_true, decide_eq_true_eq] at hc
      exact ⟨rfl, hc.1, hc.2, hu.symm⟩
    · simp [hc] at hu
  · left
    by_cases hc : tableValid cand = true <;> simp [hc] at hu
    exact ⟨rfl, hc, hu.symm⟩

/-! The pipeline as a whole. -/

/-- Whether the header of a state's window passes (R158). -/
def sfPass (p : Params) (s : State) : Bool := headerPasses p s.window (rsDecode s.subchannel s.window).data

/-- The header configuration that a state's window carries (R210). -/
def sfCand (s : State) : HeaderConfig := parseHeader s.subchannel (rsDecode s.subchannel s.window).data

/-- What the header of a state's window decides (R157). -/
def sfDecision (p : Params) (s : State) : HeaderDecision := decideHeader p (sfPass p s) (sfCand s) s

/-- The access units that a state's window forwards (R157, R164). -/
def sfAus (p : Params) (s : State) : List AuRecord :=
  match (sfDecision p s).use with
  | some h => auRecords s.subchannel (rsDecode s.subchannel s.window).data (rsDecode s.subchannel s.window).unc h
  | none => []

/-- The number of access units that the success rate counts for a state's window (R284). -/
def sfTot (p : Params) (s : State) : Nat :=
  match (sfDecision p s).use with
  | some h => h.n
  | none => max s.nominalAus.toNat 1

/-- The state changes of the pipeline before its report. -/
def sfApplied (p : Params) (s : State) : State :=
  applyAus (sfDecision p s).use (sfAus p s)
    (applyRs (rsDecode s.subchannel s.window).corr ((rsDecode s.subchannel s.window).unc.countP id)
      (applyHeader p (sfPass p s) (sfCand s) s))

/-- The pipeline as its stages (R157). -/
theorem superframe_eq (p : Params) (s : State) :
    superframe p s = setFrames (nextFrames p (sfDecision p s).outcome s.frames)
      (reportSuperframe p (sfDecision p s).outcome (rsDecode s.subchannel s.window).corr
        ((rsDecode s.subchannel s.window).unc.countP id) (sfAus p s).length (invalidAus (sfAus p s))
        ((sfAus p s).length - invalidAus (sfAus p s)) (sfTot p s) (sfApplied p s)) := rfl

/-- What the stages before the report leave alone. -/
theorem sfApplied_keeps (p : Params) (s : State) :
    (sfApplied p s).cfgBitrate = s.cfgBitrate ∧
      (sfApplied p s).fatal = s.fatal ∧
      (sfApplied p s).frames = s.frames ∧
      (sfApplied p s).srHist = s.srHist ∧
      (sfApplied p s).successRate = s.successRate ∧
      (sfApplied p s).xpadPrevLen = s.xpadPrevLen ∧
      (sfApplied p s).xpadPrevApp = s.xpadPrevApp ∧
      (sfApplied p s).shortPrevApp = s.shortPrevApp ∧
      (sfApplied p s).dgActive = s.dgActive ∧
      (sfApplied p s).dgBuf = s.dgBuf ∧
      (sfApplied p s).asm = s.asm ∧
      (sfApplied p s).label = s.label ∧
      (sfApplied p s).input = s.input ∧
      (sfApplied p s).accepted = s.accepted ∧
      (sfApplied p s).acceptsNow = s.acceptsNow := by
  unfold sfApplied
  simp only [applyAus_cfgBitrate, applyAus_fatal, applyAus_frames, applyAus_srHist, applyAus_successRate, applyAus_xpadPrevLen, applyAus_xpadPrevApp, applyAus_shortPrevApp, applyAus_dgActive, applyAus_dgBuf, applyAus_asm, applyAus_label, applyAus_input, applyAus_accepted, applyAus_acceptsNow,
    applyRs_cfgBitrate, applyRs_fatal, applyRs_frames, applyRs_srHist, applyRs_successRate, applyRs_xpadPrevLen, applyRs_xpadPrevApp, applyRs_shortPrevApp, applyRs_dgActive, applyRs_dgBuf, applyRs_asm, applyRs_label, applyRs_input, applyRs_accepted, applyRs_acceptsNow,
    applyHeader_cfgBitrate, applyHeader_fatal, applyHeader_frames, applyHeader_srHist, applyHeader_successRate, applyHeader_xpadPrevLen, applyHeader_xpadPrevApp, applyHeader_shortPrevApp, applyHeader_dgActive, applyHeader_dgBuf, applyHeader_asm, applyHeader_label, applyHeader_input, applyHeader_accepted, applyHeader_acceptsNow, and_self]

/-- What the pipeline leaves alone. -/
theorem superframe_keeps (p : Params) (s : State) :
    (superframe p s).cfgBitrate = s.cfgBitrate ∧
      (superframe p s).fatal = s.fatal ∧
      (superframe p s).xpadPrevLen = s.xpadPrevLen ∧
      (superframe p s).xpadPrevApp = s.xpadPrevApp ∧
      (superframe p s).shortPrevApp = s.shortPrevApp ∧
      (superframe p s).dgActive = s.dgActive ∧
      (superframe p s).dgBuf = s.dgBuf ∧
      (superframe p s).asm = s.asm ∧
      (superframe p s).label = s.label ∧
      (superframe p s).input = s.input ∧
      (superframe p s).accepted = s.accepted ∧
      (superframe p s).acceptsNow = s.acceptsNow := by
  obtain ⟨h1, h2, _, _, _, h3, h4, h5, h6, h7, h8, h9, h10, h11, h12⟩ := sfApplied_keeps p s
  rw [superframe_eq]
  simp only [setFrames_cfgBitrate, setFrames_fatal, setFrames_xpadPrevLen, setFrames_xpadPrevApp, setFrames_shortPrevApp, setFrames_dgActive, setFrames_dgBuf, setFrames_asm, setFrames_label, setFrames_input, setFrames_accepted, setFrames_acceptsNow,
    reportSuperframe_cfgBitrate, reportSuperframe_fatal, reportSuperframe_xpadPrevLen, reportSuperframe_xpadPrevApp, reportSuperframe_shortPrevApp, reportSuperframe_dgActive, reportSuperframe_dgBuf, reportSuperframe_asm, reportSuperframe_label, reportSuperframe_input, reportSuperframe_accepted, reportSuperframe_acceptsNow]
  exact ⟨h1, h2, h3, h4, h5, h6, h7, h8, h9, h10, h11, h12⟩

theorem superframe_syncState (p : Params) (s : State) :
    (superframe p s).syncState = (applyHeader p (sfPass p s) (sfCand s) s).syncState := by
  simp [superframe_eq, sfApplied]

theorem superframe_failRun (p : Params) (s : State) :
    (superframe p s).failRun = (applyHeader p (sfPass p s) (sfCand s) s).failRun := by
  simp [superframe_eq, sfApplied]

theorem superframe_lastGood (p : Params) (s : State) :
    (superframe p s).lastGood = (applyHeader p (sfPass p s) (sfCand s) s).lastGood := by
  simp [superframe_eq, sfApplied]

theorem superframe_nominalAus (p : Params) (s : State) :
    (superframe p s).nominalAus =
      match (sfDecision p s).use with
      | some h => BitVec.ofNat 3 h.n
      | none => s.nominalAus := by
  simp only [superframe_eq, setFrames_nominalAus, reportSuperframe_nominalAus, sfApplied]
  cases (sfDecision p s).use
  · simp [applyAus]
  · rfl

theorem superframe_srHist (p : Params) (s : State) :
    (superframe p s).srHist = pushHist p.srWindow s.srHist
      (BitVec.ofNat 3 ((sfAus p s).length - invalidAus (sfAus p s)), BitVec.ofNat 3 (sfTot p s)) := by
  have h : (sfApplied p s).srHist = s.srHist := (sfApplied_keeps p s).2.2.2.1
  rw [superframe_eq, ← h]
  rfl

theorem superframe_successRate (p : Params) (s : State) :
    (superframe p s).successRate = rateOf (superframe p s).srHist := rfl

theorem superframe_frames (p : Params) (s : State) :
    (superframe p s).frames = nextFrames p (sfDecision p s).outcome s.frames := rfl

theorem superframe_counters (p : Params) (s : State) :
    (superframe p s).counters =
      { (sfApplied p s).counters with sfCount := satAdd32 (sfApplied p s).counters.sfCount 1 } := rfl

/-- The counters before the report, in one record. -/
theorem sfApplied_counters (p : Params) (s : State) :
    (sfApplied p s).counters = { s.counters with
      frameErr := if sfPass p s = true ∧ tableValid (sfCand s) = true then s.counters.frameErr
        else satAdd32 s.counters.frameErr 1
      auErr := if (sfDecision p s).use = none then s.counters.auErr
        else satAdd32 s.counters.auErr (invalidAus (sfAus p s))
      auFwd := if (sfDecision p s).use = none then s.counters.auFwd else satAdd32 s.counters.auFwd (sfAus p s).length
      rsCorr := satAdd32 s.counters.rsCorr (rsDecode s.subchannel s.window).corr
      rsUncorr := satAdd32 s.counters.rsUncorr ((rsDecode s.subchannel s.window).unc.countP id) } := by
  unfold sfApplied
  cases hu : (sfDecision p s).use <;> simp [applyHeader_counters] <;> split <;> simp

/-- The records the pipeline emits: those of the access units, then SUPERFRAME_STATUS and SUCCESS_RATE (R166). -/
theorem superframe_output (p : Params) (s : State) :
    (superframe p s).output = s.output ++
      (match (sfDecision p s).use with
        | some h => (sfAus p s).map fun a => auEvent a.index a.valid h.hdr a.payload
        | none => []) ++
      [superframeStatusEvent (sfDecision p s).outcome.code (rsDecode s.subchannel s.window).corr
          ((rsDecode s.subchannel s.window).unc.countP id) (sfAus p s).length (invalidAus (sfAus p s))
          (superframe p s).syncState.code (superframe p s).failRun,
        successRateEvent (superframe p s).successRate] := by
  have h : (sfApplied p s).output = s.output ++
      (match (sfDecision p s).use with
        | some h => (sfAus p s).map fun a => auEvent a.index a.valid h.hdr a.payload
        | none => []) := by
    unfold sfApplied
    cases hu : (sfDecision p s).use
    · simp [applyAus]
    · simp [applyAus, extractAus]
  rw [← h, superframe_eq]
  simp [reportSuperframe]
  rfl

/-- An unforwarded superframe forwards no access unit. -/
theorem sfAus_none {p : Params} {s : State} (h : (sfDecision p s).use = none) : sfAus p s = [] := by
  unfold sfAus
  rw [h]

/-- A forwarded superframe forwards as many access units as its configuration has. -/
theorem sfAus_length {p : Params} {s : State} {h : HeaderConfig} (hu : (sfDecision p s).use = some h) :
    (sfAus p s).length = h.n ∧ sfTot p s = h.n := by
  unfold sfAus sfTot
  rw [hu]
  simp [auRecords]

end Sys2Proof.Machine
end

