-- ==== Sys2Proof/Laws/AddFrame.lean ====
section
/-! SUPPORT. The three ways an ADD_FRAME can go (R150 to R154), what a CONFIG value is legal (R122), and the rule that
carries a property of states through every step. -/

namespace Sys2Proof.Machine

/-- The legal bitrates of this hardware (R122). -/
theorem legalBitrate_hw (b : Half) :
    legalBitrate Config.hw b = true ↔ b.toNat % 8 = 0 ∧ 8 ≤ b.toNat ∧ b.toNat ≤ 192 := by
  have h : legalBitrate Config.hw b =
      (decide (b.toNat % 8 = 0) && decide (8 ≤ b.toNat) && decide (b.toNat ≤ 192)) := rfl
  rw [h, Bool.and_eq_true, Bool.and_eq_true, decide_eq_true_eq, decide_eq_true_eq, decide_eq_true_eq, and_assoc]

/-- When a frame is accepted (R151). -/
theorem frameAccepted_iff (len : Nat) (s : State) :
    frameAccepted len s = true ↔ s.cfgBitrate ≠ 0 ∧ len = s.frameLen := by
  simp [frameAccepted, State.configured]

/-- ADD_FRAME drops the frame, or appends it, or appends it and runs the pipeline; then it reports the counters (R150). -/
theorem addFrame_cases (p : Params) (frame : List Byte) (s : State) :
    ∃ u, addFrame p frame s = emitCountersIfChanged s.counters u ∧
      ((¬(s.cfgBitrate ≠ 0 ∧ frame.length = s.frameLen) ∧ u = framingError frame.length s) ∨
        ((s.cfgBitrate ≠ 0 ∧ frame.length = s.frameLen) ∧ s.frames.length ≠ 4 ∧
          u = setFrames (s.frames ++ [frame]) (processPad p frame s)) ∨
        ((s.cfgBitrate ≠ 0 ∧ frame.length = s.frameLen) ∧ s.frames.length = 4 ∧
          u = superframe p (setFrames (s.frames ++ [frame]) (processPad p frame s)))) := by
  refine ⟨_, rfl, ?_⟩
  have hf := (processPad_keeps p frame s).frames
  by_cases h : frameAccepted frame.length s = true
  · rw [if_pos h]
    unfold acceptFrame
    dsimp only
    rw [hf, setFrames_frames, List.length_append, List.length_singleton]
    by_cases h4 : s.frames.length = 4
    · exact .inr (.inr ⟨(frameAccepted_iff _ s).1 h, h4, if_pos (by rw [h4]; rfl)⟩)
    · exact .inr (.inl ⟨(frameAccepted_iff _ s).1 h, h4, if_neg (by unfold Config.framesPerSf; omega)⟩)
  · rw [if_neg h]
    exact .inl ⟨fun hc => h ((frameAccepted_iff _ s).2 hc), rfl⟩

/-- The operations that a step is made of: a property they all keep is kept by every step. -/
structure StepClosed (P : State → Prop) : Prop where
  fetched : ∀ (s : State) rest accepted, P s → P { s with input := rest, accepted := accepted }
  event : ∀ e s, e.tag = 0x08 ∨ e.tag = 0x09 ∨ e.tag = 0x0E → P s → P (emit e s)
  commandError : ∀ op code s, P s → P (commandError op code s)
  config : ∀ b s, P s → P (config Config.hw b s)
  reset : ∀ s, P s → P (sessionReset s)
  addFrame : ∀ frame s, P s → P (addFrame Config.hw frame s)

theorem StepClosed.checked {P : State → Prop} (h : StepClosed P) (op rsv : Byte) {f : State → State} {s : State}
    (hf : P (f s)) (hs : P s) : P (checkRsv op rsv f s) := by
  unfold checkRsv
  split
  · exact hf
  · exact h.commandError _ _ s hs

theorem StepClosed.exec {P : State → Prop} (h : StepClosed P) {i : Instr} {s t : State} (hs : P s)
    (he : Machine.exec i s = .next t) : P t := by
  have read : ∀ idx, P (readReg Config.hw idx s) := by
    intro idx
    unfold readReg
    split
    · exact h.event _ s (.inl rfl) hs
    · exact h.commandError _ _ s hs
  cases i with
  | nop rsv arg => cases he; exact h.checked _ _ hs hs
  | config rsv b => cases he; exact h.checked _ _ (h.config b s hs) hs
  | channelReset rsv arg => cases he; exact h.checked _ _ (h.reset s hs) hs
  | addFrame rsv payload => cases he; exact h.checked _ _ (h.addFrame payload s hs) hs
  | readReg rsv arg => cases he; exact h.checked _ _ (read _) hs
  | snapshot rsv arg => cases he; exact h.checked _ _ (h.event _ s (.inr (.inl rfl)) hs) hs
  | readLabel rsv arg => cases he; exact h.checked _ _ (h.event _ s (.inr (.inr rfl)) hs) hs
  | reserved07 rsv arg => cases he; exact h.commandError _ _ s hs
  | reserved08 low rsv arg => cases he; exact h.commandError _ _ s hs
  | reserved10 low rsv arg => cases he; exact h.commandError _ _ s hs
  | reserved20 low rsv arg => cases he; exact h.commandError _ _ s hs
  | reserved40 low rsv arg => cases he; exact h.commandError _ _ s hs
  | reserved80 low rsv arg => cases he; exact h.commandError _ _ s hs

theorem StepClosed.step {P : State → Prop} (h : StepClosed P) {s t : State} (hs : P s)
    (he : Machine.step s = .next t) : P t := by
  obtain ⟨i, rest, _, _, hx⟩ := step_next_cases he
  exact h.exec (h.fetched s _ _ hs) hx

end Sys2Proof.Machine
end

