-- ==== Sys2Proof/Laws/AuExtract.lean ====
section
/-! SUPPORT. Bit fields across bytes, and the shape of a parsed header configuration (R101, R102, R210). -/

namespace Sys2Proof.Machine

/-- The bits of a field in two parts (R64). -/
theorem formatNumber_append (a b : List Bool) :
    Tables.formatNumber (a ++ b) = Tables.formatNumber a * 2 ^ b.length + Tables.formatNumber b := by
  have from_acc : ∀ (l : List Bool) (n : Nat),
      l.foldl (fun n bit => 2 * n + bit.toNat) n = n * 2 ^ l.length + Tables.formatNumber l := by
    intro l
    induction l with
    | nil => simp [Tables.formatNumber]
    | cons x l ih =>
      intro n
      rw [Tables.formatNumber, List.foldl_cons, List.foldl_cons, ih, ih, List.length_cons, pow_succ]
      ring
  rw [Tables.formatNumber, List.foldl_append, from_acc]
  rfl

/-- A field of `len` bits is below `2^len` (R10). -/
theorem formatNumber_lt (bits : List Bool) : Tables.formatNumber bits < 2 ^ bits.length := by
  induction bits with
  | nil => simp [Tables.formatNumber]
  | cons x bits ih =>
    have h := formatNumber_append [x] bits
    have hx : Tables.formatNumber [x] ≤ 1 := by cases x <;> decide
    rw [List.cons_append, List.nil_append] at h
    rw [h, List.length_cons, pow_succ]
    have := Nat.mul_le_mul_right (2 ^ bits.length) hx
    omega

theorem bitString_lt (b : List Byte) (off len : Nat) : bitString b off len < 2 ^ len := by
  simpa [bitString] using formatNumber_lt ((List.range len).map fun i => Tables.formatBit (byteAt b ((off + i) / 8)) ((off + i) % 8))

/-- A field in two parts (R10). -/
theorem bitString_add (b : List Byte) (off m n : Nat) :
    bitString b off (m + n) = bitString b off m * 2 ^ n + bitString b (off + m) n := by
  simp only [bitString, List.range_add, List.map_append, formatNumber_append, List.map_map, List.length_map,
    List.length_range, Function.comp_def, Nat.add_assoc]

/-- The bit of a byte string at offset `r < 8` of byte `k` (R10). -/
theorem bitString_one (b : List Byte) (k r : Nat) (h : r < 8) :
    bitString b (8 * k + r) 1 = (byteAt b k).toNat / 2 ^ (7 - r) % 2 := by
  have h1 : (8 * k + r) / 8 = k := by omega
  have h2 : (8 * k + r) % 8 = r := by omega
  simp [bitString, Tables.formatNumber, BitVec.getMsbD, BitVec.getLsbD, Nat.toNat_testBit, h1, h2, h]

/-- The high half of a byte (R10). -/
theorem bitString_high (b : List Byte) (k : Nat) : bitString b (8 * k) 4 = bitField (byteAt b k) 7 4 := by
  have h0 := bitString_one b k 0 (by decide)
  have h1 := bitString_one b k 1 (by decide)
  have h2 := bitString_one b k 2 (by decide)
  have h3 := bitString_one b k 3 (by decide)
  rw [show 4 = 1 + 1 + 1 + 1 from rfl, bitString_add, bitString_add, bitString_add, Nat.add_assoc _ 1 1, Nat.add_assoc _ 1 2]
  simp only [Nat.add_zero, Nat.reduceAdd, Nat.reduceSub, Nat.reducePow] at h0 h1 h2 h3 ⊢
  rw [h0, h1, h2, h3, bitField]
  omega

/-- The low half of a byte (R10). -/
theorem bitString_low (b : List Byte) (k : Nat) : bitString b (8 * k + 4) 4 = bitField (byteAt b k) 3 0 := by
  have h0 := bitString_one b k 4 (by decide)
  have h1 := bitString_one b k 5 (by decide)
  have h2 := bitString_one b k 6 (by decide)
  have h3 := bitString_one b k 7 (by decide)
  rw [show 4 = 1 + 1 + 1 + 1 from rfl, bitString_add, bitString_add, bitString_add]
  simp only [Nat.add_assoc, Nat.reduceAdd, Nat.reduceSub, Nat.reducePow] at h0 h1 h2 h3 ⊢
  rw [h0, h1, h2, h3, bitField]
  omega

/-- A whole byte (R10). -/
theorem bitString_byte (b : List Byte) (k : Nat) : bitString b (8 * k) 8 = (byteAt b k).toNat := by
  have := (byteAt b k).isLt
  have h : bitString b (8 * k) 8 = bitString b (8 * k) 4 * 2 ^ 4 + bitString b (8 * k + 4) 4 :=
    bitString_add b (8 * k) 4 4
  rw [bitString_high, bitString_low, bitField, bitField] at h
  omega

/-- The AU counts and first offsets of R102. -/
theorem auTable_cases (dacRate sbrFlag : Bool) :
    Tables.auTable dacRate sbrFlag = (4, 8) ∨ Tables.auTable dacRate sbrFlag = (2, 5) ∨
      Tables.auTable dacRate sbrFlag = (6, 11) ∨ Tables.auTable dacRate sbrFlag = (3, 6) := by
  revert dacRate sbrFlag
  decide

/-- A parsed header has 2, 3, 4 or 6 AUs (R102). -/
theorem parseHeader_n (s : Nat) (data : List Byte) : (parseHeader s data).n ∈ [2, 3, 4, 6] := by
  have h : (parseHeader s data).n = (Tables.auTable ((byteAt data 2).getLsbD 6) ((byteAt data 2).getLsbD 5)).1 := rfl
  rw [h]
  rcases auTable_cases ((byteAt data 2).getLsbD 6) ((byteAt data 2).getLsbD 5) with e | e | e | e <;> rw [e] <;> decide

/-- A packed field has 12 bits (R101). -/
theorem auStartField_lt (data : List Byte) (i : Nat) : auStartField data i < 4096 := by
  exact bitString_lt data _ _

/-- The five packed fields byte by byte (R101). -/
theorem auStartField_bytes (data : List Byte) :
    auStartField data 1 = (byteAt data 3).toNat * 16 + bitField (byteAt data 4) 7 4 ∧
    auStartField data 2 = bitField (byteAt data 4) 3 0 * 256 + (byteAt data 5).toNat ∧
    auStartField data 3 = (byteAt data 6).toNat * 16 + bitField (byteAt data 7) 7 4 ∧
    auStartField data 4 = bitField (byteAt data 7) 3 0 * 256 + (byteAt data 8).toNat ∧
    auStartField data 5 = (byteAt data 9).toNat * 16 + bitField (byteAt data 10) 7 4 := by
  have whole : ∀ k, bitString data (8 * k) 12 = (byteAt data k).toNat * 16 + bitField (byteAt data (k + 1)) 7 4 := by
    intro k
    rw [← bitString_byte data k, ← bitString_high data (k + 1)]
    exact bitString_add data (8 * k) 8 4
  have half : ∀ k, bitString data (8 * k + 4) 12 = bitField (byteAt data k) 3 0 * 256 + (byteAt data (k + 1)).toNat := by
    intro k
    rw [← bitString_low data k, ← bitString_byte data (k + 1)]
    exact bitString_add data (8 * k + 4) 4 8
  exact ⟨whole 3, half 4, whole 6, half 7, whole 9⟩

/-- A parsed table has one offset more than AUs (R210). -/
theorem parseHeader_length (s : Nat) (data : List Byte) :
    (parseHeader s data).auStart.length = (parseHeader s data).n + 1 := by
  have h := parseHeader_n s data
  have hl : (parseHeader s data).auStart.length = (parseHeader s data).n - 1 + 2 := by simp [parseHeader]
  simp only [List.mem_cons, List.not_mem_nil, or_false] at h
  omega

/-- The offsets of a parsed table fit in a table entry, for every subchannel size below 596 (R29, R211). -/
theorem parseHeader_entry {s : Nat} (hs : Tables.rsDataLen * s < 65536) (data : List Byte) {a : Nat}
    (ha : a ∈ (parseHeader s data).auStart) : a < 65536 := by
  simp only [parseHeader, List.cons_append, List.mem_cons, List.mem_append, List.mem_map, List.mem_range,
    List.not_mem_nil, or_false] at ha
  rcases ha with rfl | ⟨i, _, rfl⟩ | rfl
  · rcases auTable_cases ((byteAt data 2).getLsbD 6) ((byteAt data 2).getLsbD 5) with e | e | e | e <;> rw [e] <;> decide
  · exact lt_trans (auStartField_lt data _) (by decide)
  · exact hs

end Sys2Proof.Machine
end

