-- ==== Sys2Proof/Laws/Crc.lean ====
section
/-! SUPPORT. The CRC register byte by byte, and what a matching CRC means (R181, R214). -/

namespace Sys2Proof.Machine

@[simp] theorem crcRegister_nil (poly r : Half) : crcRegister poly r [] = r := rfl

@[simp] theorem crcRegister_cons (poly r : Half) (b : Byte) (bytes : List Byte) :
    crcRegister poly r (b :: bytes) = crcRegister poly (crcByte poly r b) bytes := by
  rw [crcRegister, withValue_eq]

/-- One multiplication by `x`, and with it one bit taken, as a sum. -/
theorem crcShift_eq (poly r : Half) : crcShift poly r = (if r.msb then poly else 0) ^^^ (r <<< 1) := by
  unfold crcShift
  cases r.msb <;> simp [BitVec.xor_comm]

theorem crcBit_eq (poly r : Half) (bit : Bool) :
    crcBit poly r bit = (if r.msb ^^ bit then poly else 0) ^^^ (r <<< 1) := by
  have h : (r ^^^ BitVec.intMin 16) <<< 1 = r <<< 1 := by
    rw [BitVec.shiftLeft_xor_distrib, show BitVec.intMin 16 <<< 1 = 0#16 from rfl, BitVec.xor_zero]
  cases bit
  · simp [crcBit, crcShift_eq]
  · cases hr : r.msb <;> simp [crcBit, crcShift_eq, h, hr, show (BitVec.intMin 16).msb = true from rfl]

/-- Shifting a register into which a string was combined is taking the string's first bit, with the rest combined. -/
theorem crcShift_xor (poly r v : Half) : crcShift poly (r ^^^ v) = crcBit poly r v.msb ^^^ (v <<< 1) := by
  rw [crcShift_eq, crcBit_eq, BitVec.msb_xor, BitVec.shiftLeft_xor_distrib, BitVec.xor_assoc]

/-- The same for `n` bits. -/
theorem crcShift_iterate_xor (poly r v : Half) (n : Nat) :
    (crcShift poly)^[n] (r ^^^ v) = ((List.range n).map v.getMsbD).foldl (crcBit poly) r ^^^ (v <<< n) := by
  induction n with
  | zero => simp
  | succ n ih =>
    rw [Function.iterate_succ_apply', ih, crcShift_xor, List.range_succ, List.map_append, List.foldl_append,
      BitVec.shiftLeft_add]
    congr 2
    simp [BitVec.msb_shiftLeft]

/-- One byte is the loop of R181 and R214: the byte is combined into the high byte of the register, which is then shifted
eight times. -/
theorem crcByte_eq (poly r : Half) (b : Byte) :
    crcByte poly r b = (crcShift poly)^[8] (r ^^^ (b.setWidth 16 <<< 8)) := by
  have h0 : ∀ b : Byte, b.setWidth 16 <<< 8 <<< 8 = (0 : Half) := by decide +kernel
  have hb : ∀ b : Byte, (List.range 8).map (b.setWidth 16 <<< 8 : Half).getMsbD = Tables.checkBits b := by decide +kernel
  rw [crcShift_iterate_xor, h0, hb]
  exact BitVec.xor_zero.symm

/-- The firecode is the register's last value: nothing is inverted (R181). -/
theorem firecode_eq (bytes : List Byte) : firecode bytes = crcRegister 0x782F 0 bytes := BitVec.xor_zero

/-- The register runs over a string in pieces. -/
theorem crcRegister_append (poly r : Half) (a b : List Byte) :
    crcRegister poly r (a ++ b) = crcRegister poly (crcRegister poly r a) b := by
  induction a generalizing r with
  | nil => rfl
  | cons x a ih => simp only [List.cons_append, crcRegister_cons, ih]

/-- A string followed by its CRC passes the check (R103, R113). -/
theorem crcOk_append (bytes : List Byte) : crcOk (bytes ++ be16Bytes (crc16 bytes)) = true := by
  have hl : (bytes ++ be16Bytes (crc16 bytes)).length = bytes.length + 2 := by simp
  have h0 : byteAt (bytes ++ be16Bytes (crc16 bytes)) bytes.length = (crc16 bytes).extractLsb' 8 8 :=
    byteAt_append_right bytes (be16Bytes (crc16 bytes)) 0
  have h1 : byteAt (bytes ++ be16Bytes (crc16 bytes)) (bytes.length + 1) = (crc16 bytes).extractLsb' 0 8 :=
    byteAt_append_right bytes (be16Bytes (crc16 bytes)) 1
  have hw : Tables.crcWord (bytes ++ be16Bytes (crc16 bytes)) = crc16 bytes := by
    unfold Tables.crcWord
    rw [hl, Tables.crcLen_eq, Nat.add_sub_cancel, h0, h1]
    exact be16_be16Bytes _
  have hc : Tables.crcCovered (bytes ++ be16Bytes (crc16 bytes)) = bytes := by
    rw [Tables.crcCovered, hl, Tables.crcLen_eq, Nat.add_sub_cancel, List.take_left]
  rw [crcOk, hw, hc, hl]
  simp

/-- A string shorter than a CRC never passes (R214). -/
theorem crcOk_short (bytes : List Byte) (h : bytes.length < 2) : crcOk bytes = false := by
  unfold crcOk
  have : ¬2 ≤ bytes.length := by omega
  simp [this]

end Sys2Proof.Machine
end

