-- ==== Sys2Proof/Laws/DynamicLabel.lean ====
section
/-! SUPPORT. What storing a label segment leaves in the assembly (R260 to R263). -/

namespace Sys2Proof.Machine

/-- The assembly a segment is stored into: the one in progress, or an empty one when the toggle changes (R261). -/
def LabelAsm.base (g : SegmentInfo) (a : LabelAsm) : LabelAsm :=
  if a.active && (g.toggle != a.toggle) then a.clearSlots else a

@[simp] theorem LabelAsm.store_active (g : SegmentInfo) (a : LabelAsm) : (a.store g).active = true := rfl
@[simp] theorem LabelAsm.store_toggle (g : SegmentInfo) (a : LabelAsm) : (a.store g).toggle = g.toggle := rfl
@[simp] theorem LabelAsm.store_charset (g : SegmentInfo) (a : LabelAsm) :
    (a.store g).charset = if g.seg = 0 then g.charset else (a.base g).charset := rfl
@[simp] theorem LabelAsm.store_lastValid (g : SegmentInfo) (a : LabelAsm) :
    (a.store g).lastValid = ((a.base g).lastValid || g.last) := rfl
@[simp] theorem LabelAsm.store_last (g : SegmentInfo) (a : LabelAsm) :
    (a.store g).last = if g.last then g.seg else (a.base g).last := rfl

/-- A segment number is the number of its slot: three bits are below `DL_MODULUS` (R267). -/
@[simp] theorem slotIndex_val (seg : BitVec 3) : (slotIndex seg).val = seg.toNat := Nat.mod_eq_of_lt seg.isLt

/-- The stored segment fills its own slot; the other slots are those of the assembly it joins (R262). -/
theorem LabelAsm.store_slot (g : SegmentInfo) (a : LabelAsm) (k : Fin 8) :
    (a.store g).slots[k] = if g.seg.toNat = k.val then ⟨true, g.payload⟩ else (a.base g).slots[k] := by
  have h : (a.store g).slots = (a.base g).slots.set (slotIndex g.seg) ⟨true, g.payload⟩ := rfl
  rw [h, ← slotIndex_val]
  exact Vector.getElem_set _ _

end Sys2Proof.Machine
end

