-- ==== Sys2Proof/Laws/Launch.lean ====
section
/-! SUPPORT. What the launch premises of R334 give a claim. -/

namespace Sys2Proof.Machine

/-- A move leaves the event records alone, unless it executes a command. -/
theorem Move.output {s t : State} (h : Move s t) : t.output = s.output ∨ step s = .next t := by
  cases h with
  | command h => exact .inr h
  | send | accept | ready | idle => exact .inl rfl

/-- A property of the block's own state that holds after power-on reset and that every step keeps holds at every clean
entry. -/
theorem CleanEntry.invariant {P : State → Prop} (block : ∀ s t : State, t.blockOnly = s.blockOnly → P s → P t)
    (reset : P State.reset) (keeps : ∀ s t : State, P s → step s = .next t → P t) {s : State} (h : CleanEntry s) : P s := by
  induction h with
  | reset => exact reset
  | move _ hm ih =>
    cases hm with
    | command hs => exact keeps _ _ ih hs
    | send | accept | ready => refine block _ _ ?_ ih; rfl
    | idle => exact ih

/-- Power-on reset in any state is a clean entry (R330, R334). -/
theorem CleanEntry.powerOn (s : State) : CleanEntry s.powerOn := .move .reset (.ready State.reset s.acceptsNow)

/-- A stream is aligned on every part of its commands that leads it. -/
theorem StreamAligned.prefix {commands more : List Instr} {s : State} (h : StreamAligned (commands ++ more) s) :
    StreamAligned commands s :=
  ⟨fun i hi => h.1 i (List.mem_append_left more hi),
    (List.flatMap_append ▸ List.prefix_append _ _ : commands.flatMap encode <+: (commands ++ more).flatMap encode).trans h.2⟩

/-- What the host sends later keeps a stream aligned (R340). -/
theorem StreamAligned.hostSend {commands : List Instr} {s : State} (bytes : List Byte) (h : StreamAligned commands s) :
    StreamAligned commands (s.hostSend bytes) := ⟨h.1, h.2.trans (List.prefix_append _ _)⟩

end Sys2Proof.Machine
end

