-- ==== Sys2Proof/Laws/PerInstr.lean ====
section
/-! SUPPORT. A statement about every command as syntax: how long its encoding is (R82). One lemma for each constructor. -/

namespace Sys2Proof.Laws

/-- The encoding of a command is its 4-byte word and its payload, and its first byte is its opcode (R80, R82). -/
def CommandLength.Statement (i : Instr) : Prop :=
  (encode i).length = 4 + i.payload.length ∧ (encode i).head? = some i.opcode ∧ (i.payload ≠ [] → i.opcode = 0x03)

/-- The length of any command, from what its payload is. -/
theorem CommandLength.of_payload (i : Instr) (h : i.payload ≠ [] → i.opcode = 0x03) : CommandLength.Statement i :=
  ⟨by simp [encode, commandWord]; omega, rfl, h⟩

theorem CommandLength.nop (rsv : Byte) (arg : Half) : CommandLength.Statement (.nop rsv arg) :=
  of_payload _ fun h => absurd rfl h
theorem CommandLength.config (rsv : Byte) (bitrate : Half) : CommandLength.Statement (.config rsv bitrate) :=
  of_payload _ fun h => absurd rfl h
theorem CommandLength.channelReset (rsv : Byte) (arg : Half) : CommandLength.Statement (.channelReset rsv arg) :=
  of_payload _ fun h => absurd rfl h
theorem CommandLength.addFrame (rsv : Byte) (payload : List Byte) : CommandLength.Statement (.addFrame rsv payload) :=
  of_payload _ fun _ => rfl
theorem CommandLength.readReg (rsv : Byte) (arg : Half) : CommandLength.Statement (.readReg rsv arg) :=
  of_payload _ fun h => absurd rfl h
theorem CommandLength.snapshot (rsv : Byte) (arg : Half) : CommandLength.Statement (.snapshot rsv arg) :=
  of_payload _ fun h => absurd rfl h
theorem CommandLength.readLabel (rsv : Byte) (arg : Half) : CommandLength.Statement (.readLabel rsv arg) :=
  of_payload _ fun h => absurd rfl h
theorem CommandLength.reserved07 (rsv : Byte) (arg : Half) : CommandLength.Statement (.reserved07 rsv arg) :=
  of_payload _ fun h => absurd rfl h
theorem CommandLength.reserved08 (low : BitVec 3) (rsv : Byte) (arg : Half) :
    CommandLength.Statement (.reserved08 low rsv arg) := of_payload _ fun h => absurd rfl h
theorem CommandLength.reserved10 (low : BitVec 4) (rsv : Byte) (arg : Half) :
    CommandLength.Statement (.reserved10 low rsv arg) := of_payload _ fun h => absurd rfl h
theorem CommandLength.reserved20 (low : BitVec 5) (rsv : Byte) (arg : Half) :
    CommandLength.Statement (.reserved20 low rsv arg) := of_payload _ fun h => absurd rfl h
theorem CommandLength.reserved40 (low : BitVec 6) (rsv : Byte) (arg : Half) :
    CommandLength.Statement (.reserved40 low rsv arg) := of_payload _ fun h => absurd rfl h
theorem CommandLength.reserved80 (low : BitVec 7) (rsv : Byte) (arg : Half) :
    CommandLength.Statement (.reserved80 low rsv arg) := of_payload _ fun h => absurd rfl h

end Sys2Proof.Laws
end

