-- ==== Sys2Proof/Laws/ReedSolomon.lean ====
section
/-! SUPPORT. The shapes of the Reed-Solomon decoder's values, Horner's rule, and the three answers of DecodeRow (R193 to
R199). -/

namespace Sys2Proof.Machine

@[simp] theorem horner_nil (x acc : Byte) : horner x acc [] = acc := rfl

@[simp] theorem horner_cons (x acc c : Byte) (coeffs : List Byte) :
    horner x acc (c :: coeffs) = horner x (gmul acc x ^^^ c) coeffs := by
  rw [horner, withValue_eq]

theorem horner_append (x acc : Byte) (a b : List Byte) : horner x acc (a ++ b) = horner x (horner x acc a) b := by
  induction a generalizing acc with
  | nil => rfl
  | cons c a ih => simp only [List.cons_append, horner_cons, ih]

/-- Byte `119 - d` of a codeword is the coefficient of `x^d` (R193). -/
theorem degreePosition_eq {d : Nat} (h : d < 120) : degreePosition d = 119 - d := by
  have : ∀ e : Fin 120, degreePosition e = 119 - e := by decide +kernel
  exact this ⟨d, h⟩

/-- The bytes of a row are its coefficients, highest degree first (R193). -/
theorem coefficients_eq (row : List Byte) (h : row.length = 120) : coefficients row = row := by
  refine List.ext_getElem (by simp [coefficients, h]) fun i h1 h2 => ?_
  have hi : i < 120 := by omega
  simp [coefficients, degreePosition_eq (show 119 - i < 120 by omega), byteAt, h2, show 119 - (119 - i) = i by omega]

@[simp] theorem syndromes_length (row : List Byte) : (syndromes row).length = 10 := by simp [syndromes]

theorem syndromes_getElem (row : List Byte) (hl : row.length = 120) (i : Nat) (h : i < (syndromes row).length) :
    (syndromes row)[i] = evalHigh row (gpow Tables.alpha i) := by
  simp [syndromes, Tables.rsRootExponent, coefficients_eq row hl]

/-- A codeword has the value 0 at the ten roots (R193). -/
theorem isCodeword_iff (row : List Byte) (hl : row.length = 120) :
    isCodeword row = true ↔ ∀ i, i < 10 → evalHigh row (gpow Tables.alpha i) = 0 := by
  simp [isCodeword, syndromes, Tables.rsRootExponent, coefficients_eq row hl]

/-- The locator of position `k` (R193, R197). -/
theorem positionLocator_eq (k : Nat) : positionLocator k = gpow Tables.alpha (119 - k) := by
  simp [positionLocator, Tables.rsDegree]

/-- With the first root `α^0` every error enters the first syndrome with factor 1 (R191, R195). -/
theorem firstFactor_eq (k : Nat) : firstFactor k = 1 := by simp [firstFactor, gpow]

@[simp] theorem correctRow_length (row synd : List Byte) (positions : List Nat) :
    (correctRow row synd positions).length = row.length := by simp [correctRow]

@[simp] theorem matrixRow_length (s : Nat) (window : List Byte) (j : Nat) : (matrixRow s window j).length = 120 := by
  simp [matrixRow, Tables.rsCodeLen]

/-- Byte `k` of row `j` is byte `j + k × s` of the window (R192). -/
theorem matrixRow_getElem (s : Nat) (window : List Byte) (j k : Nat) (h : k < (matrixRow s window j).length) :
    (matrixRow s window j)[k] = byteAt window (j + k * s) := by simp [matrixRow]

/-- What DecodeRow can answer: a codeword as received, a codeword at most 5 positions away with the distance, or the row as
received and uncorrectable (R196). -/
theorem decodeRow_cases (row : List Byte) :
    (isCodeword row = true ∧ decodeRow row = ⟨row, 0, false⟩) ∨
    (∃ fixed, isCodeword row = false ∧ isCodeword fixed = true ∧ rowDist fixed row ≤ 5 ∧ fixed.length = row.length ∧
      decodeRow row = ⟨fixed, rowDist fixed row, false⟩) ∨
    (isCodeword row = false ∧ decodeRow row = ⟨row, 0, true⟩) := by
  unfold decodeRow
  by_cases h : isCodeword row = true
  · exact .inl ⟨h, if_pos h⟩
  · have hf : isCodeword row = false := by simpa using h
    dsimp only
    have hs : ¬((syndromes row).all (· == 0)) = true := h
    rw [if_neg hs]
    split
    · rename_i hc
      simp only [Bool.and_eq_true, decide_eq_true_eq] at hc
      exact .inr (.inl ⟨_, hf, hc.1, hc.2, correctRow_length _ _ _, rfl⟩)
    · exact .inr (.inr ⟨hf, rfl⟩)

/-- Decoding keeps the length of a row. -/
theorem decodeRow_length (row : List Byte) : (decodeRow row).row.length = row.length := by
  rcases decodeRow_cases row with ⟨_, e⟩ | ⟨fixed, _, _, _, hl, e⟩ | ⟨_, e⟩ <;> rw [e]
  exact hl

end Sys2Proof.Machine
end

