-- ==== Sys2Proof/Laws/Registers.lean ====
section
/-! SUPPORT. The bits of a register built from fields (R40 to R47). -/

namespace Sys2Proof.Machine

/-- A field shows the low bits of its value between its bounds and zeros elsewhere (R40). -/
theorem field_getLsbD (value hi lo i : Nat) :
    (field value hi lo).getLsbD i = (decide (i < 32) && (decide (lo ≤ i) && (decide (i < hi + 1) && value.testBit (i - lo)))) := by
  rw [field, BitVec.getLsbD_ofNat, Nat.testBit_mul_two_pow, Nat.testBit_mod_two_pow]
  by_cases h : lo ≤ i
  · have : (i - lo < hi + 1 - lo) = (i < hi + 1) := propext (by omega)
    simp [h, this]
  · simp [h]

/-- A flag shows its bit and zeros elsewhere. -/
theorem flagBit_getLsbD (b : Bool) (pos i : Nat) : (flagBit b pos).getLsbD i = (decide (i < 32) && (decide (i = pos) && b)) := by
  rw [flagBit, field_getLsbD]
  by_cases h : i = pos
  · subst h
    cases b <;> simp
  · have : (decide (pos ≤ i) && decide (i < pos + 1)) = false := by simp; omega
    rw [← Bool.and_assoc (decide (pos ≤ i)), this]
    simp [h]

/-- The registers STATUS, CONFIG, LAST_GOOD and LABEL_INFO, bit by bit (R42, R43, R46, R47). -/
theorem statusReg_getLsbD (s : State) (i : Nat) :
    (statusReg s).getLsbD i =
      ((flagBit s.configured 0).getLsbD i || (flagBit s.fatal 1).getLsbD i || (field s.frames.length 4 2).getLsbD i ||
        (field s.syncState.code.toNat 6 5).getLsbD i || (field s.failRun.toNat 15 8).getLsbD i ||
        (flagBit s.lastGood.valid 16).getLsbD i || (flagBit s.label.valid 17).getLsbD i ||
        (flagBit s.asm.active 18).getLsbD i || (flagBit s.dgActive 19).getLsbD i) := by
  simp only [statusReg, BitVec.getLsbD_or]

theorem configReg_getLsbD (s : State) (i : Nat) :
    (configReg s).getLsbD i =
      ((field s.cfgBitrate.toNat 15 0).getLsbD i || (field s.subchannel 23 16).getLsbD i) := by
  simp only [configReg, BitVec.getLsbD_or]

theorem lastGoodReg_getLsbD (s : State) (i : Nat) :
    (lastGoodReg s).getLsbD i =
      ((field s.lastGood.hdr.toNat 7 0).getLsbD i || (field s.lastGood.numAus.toNat 11 8).getLsbD i ||
        (flagBit s.lastGood.valid 31).getLsbD i) := by
  simp only [lastGoodReg, BitVec.getLsbD_or]

theorem labelInfoReg_getLsbD (s : State) (i : Nat) :
    (labelInfoReg s).getLsbD i =
      ((field s.label.text.length 7 0).getLsbD i || (field s.label.charset.toNat 11 8).getLsbD i ||
        (flagBit s.label.valid 31).getLsbD i) := by
  simp only [labelInfoReg, BitVec.getLsbD_or]

/-- READ_REG finds a register at the assigned indices 0 to 0x18 and nowhere else (R40, R48). -/
theorem readRegister_isSome (p : Params) (s : State) (idx : Byte) :
    (readRegister p s idx).isSome = decide (idx.toNat ≤ 0x18) := by
  by_cases h : idx.toNat ≤ 0x18
  · obtain ⟨⟨n, hn⟩⟩ := idx
    simp only [BitVec.toNat_ofFin] at h
    interval_cases n <;> rfl
  · unfold readRegister
    split
    all_goals first
      | omega
      | (rw [Vector.getElem?_eq_none (show 10 ≤ _ by omega)]
         simpa using h)

end Sys2Proof.Machine
end

