-- ==== Sys2Proof/Tests/Slice0.lean ====
section
/-! SUPPORT. Tests on fixed values. Expected results are those of `spec/95_test_vectors.md` or written out from the rule
named. The witnesses at the end give, for each statement with hypotheses, a state and operands that meet them. -/

namespace Sys2Proof.Tests

open Sys2Proof Sys2Proof.Machine

/-- The `n` bytes of a number, most significant first. -/
def bytes (n v : Nat) : List Byte := (List.range n).map fun i => BitVec.ofNat 8 (v / 256 ^ (n - 1 - i))

/-- The next state, where there is one. -/
def nextState : Host.Outcome State Fault Refusal → Option State
  | .next t => some t
  | .fault _ => none
  | .refused _ => none

/-- Why there is no next state, where there is none. -/
def refusal : Host.Outcome State Fault Refusal → Option Refusal
  | .next _ => none
  | .fault r => nomatch r
  | .refused r => some r

/-- The events one command adds in a state. -/
def events (i : Instr) (s : State) : Option (List Event) := (nextState (exec i s)).map fun t => t.output.drop s.output.length

/-- A block configured for 8 kbit/s. -/
def configured8 : State := { State.reset with cfgBitrate := 8 }

/-! WellFormed: the one check, and an ill-formed term it refuses. -/

theorem test_wellFormed_refuses_long_payload : (Instr.addFrame 0 (List.replicate 65536 0)).wellFormed = false := by
  rw [Instr.wellFormed, List.length_replicate]
  rfl

theorem test_wellFormed_longest_payload : (Instr.addFrame 0 (List.replicate 65535 0)).wellFormed = true := by
  rw [Instr.wellFormed, List.length_replicate]
  rfl

theorem test_wellFormed_others :
    (Instr.nop 1 2).wellFormed = true ∧ (Instr.config 1 2).wellFormed = true ∧ (Instr.reserved80 127 1 2).wellFormed = true := by
  decide

/-! Decode: one word of every row, written out from R80 and R81. -/

theorem test_decode_nop : decodeTableWord 32 0x00000000 = some (.nop 0 0) := rfl
theorem test_decode_nop_fields : decodeTableWord 32 0x00A5BEEF = some (.nop 0xA5 0xBEEF) := rfl
theorem test_decode_config : decodeTableWord 32 0x010000C0 = some (.config 0 192) := rfl
theorem test_decode_channelReset : decodeTableWord 32 0x02000000 = some (.channelReset 0 0) := rfl
theorem test_decode_addFrame : decode [0x03, 0x00, 0x00, 0x02, 0xAA, 0xBB, 0x00] = .ok (.addFrame 0 [0xAA, 0xBB], [0x00]) := rfl
theorem test_decode_addFrame_table : decodeTableWord 32 0x03000003 = some (.addFrame 0 [0, 0, 0]) := rfl
theorem test_decode_readReg : decodeTableWord 32 0x04000018 = some (.readReg 0 0x18) := rfl
theorem test_decode_snapshot : decodeTableWord 32 0x05000000 = some (.snapshot 0 0) := rfl
theorem test_decode_readLabel : decodeTableWord 32 0x06000000 = some (.readLabel 0 0) := rfl
theorem test_decode_reserved07 : decodeTableWord 32 0x07000000 = some (.reserved07 0 0) := rfl
theorem test_decode_reserved08 : decodeTableWord 32 0x0F010002 = some (.reserved08 7 1 2) := rfl
theorem test_decode_reserved10 : decodeTableWord 32 0x10000000 = some (.reserved10 0 0 0) := rfl
theorem test_decode_reserved20 : decodeTableWord 32 0x3F000000 = some (.reserved20 31 0 0) := rfl
theorem test_decode_reserved40 : decodeTableWord 32 0x41000000 = some (.reserved40 1 0 0) := rfl
theorem test_decode_reserved80 : decodeTableWord 32 0xFF123456 = some (.reserved80 127 0x12 0x3456) := rfl
theorem test_decode_short_word : decode [0x00, 0x00, 0x00] = .error .incompleteWord := rfl
theorem test_decode_short_payload : decode [0x03, 0x00, 0x00, 0x02, 0xAA] = .error .incompletePayload := rfl

/-! One-step tests: the table of 95_test_vectors.md 2.1 (program P6), unless another source is named. -/

theorem test_nop_silent : events (.nop 0 7) configured8 = some [] := by decide
theorem test_nop_rsv : events (.nop 1 0) State.reset = some [⟨0x0A, [0x00, 2]⟩] := by decide

theorem test_config_legal :
    (nextState (exec (.config 0 192) { State.reset with fatal := true, counters := { Counters.zero with frameErr := 2 } })).map
      (fun t => (t.cfgBitrate, t.fatal, t.counters.frameErr)) = some (192, false, 0) := by decide
theorem test_config_illegal :
    (nextState (exec (.config 0 7) configured8)).map (fun t => (t.cfgBitrate, t.fatal, t.output)) =
      some (0, true, [⟨0x0B, [0x00, 0x07]⟩]) := by decide

/-- R125's own example: `fill = 2` and `SF_COUNT = 1` go to 0, and the bitrate stays 96. -/
theorem test_channelReset :
    (nextState (exec (.channelReset 0 0) { State.reset with
        cfgBitrate := 96, frames := [[], []], counters := { Counters.zero with sfCount := 1 } })).map
      (fun t => (t.frames.length, t.counters.sfCount, t.cfgBitrate, t.output)) = some (0, 0, 96, []) := by decide

theorem test_readReg_params : events (.readReg 0 0x18) State.reset = some [⟨0x08, [0x18, 0x06, 0x19, 0x03, 0x18]⟩] := by decide
theorem test_readReg_unassigned : events (.readReg 0 0x19) State.reset = some [⟨0x0A, [0x04, 3]⟩] := by decide

theorem test_snapshot :
    events (.snapshot 0 0) { configured8 with counters := { Counters.zero with frameErr := 1 } } =
      some [⟨0x09, [0, 0, 0, 1, 0, 0, 0, 1] ++ List.replicate 32 0⟩] := by decide +kernel

/-- R134's own example: the label "ABCDEFGH" with character set 0. -/
theorem test_readLabel :
    events (.readLabel 0 0) { State.reset with label := ⟨true, 0, bytes 8 0x4142434445464748⟩ } =
      some [⟨0x0E, [1, 0, 8] ++ bytes 8 0x4142434445464748⟩] := by decide +kernel
theorem test_readLabel_none : events (.readLabel 0 0) State.reset = some [⟨0x0E, [0, 0, 0]⟩] := by decide

theorem test_addFrame_wrong_length :
    events (.addFrame 0 (List.replicate 23 0)) configured8 =
      some [⟨0x0C, [0, 0x17, 0, 0x18]⟩, ⟨0x04, [0, 0, 0, 1] ++ List.replicate 16 0⟩] := by decide +kernel

theorem test_reserved07 : events (.reserved07 0 0) State.reset = some [⟨0x0A, [0x07, 1]⟩] := by decide
theorem test_reserved08 : events (.reserved08 7 3 0) State.reset = some [⟨0x0A, [0x0F, 1]⟩] := by decide
theorem test_reserved10 : events (.reserved10 15 0 0) State.reset = some [⟨0x0A, [0x1F, 1]⟩] := by decide
theorem test_reserved20 : events (.reserved20 0 0 0) State.reset = some [⟨0x0A, [0x20, 1]⟩] := by decide
theorem test_reserved40 : events (.reserved40 63 0 0) State.reset = some [⟨0x0A, [0x7F, 1]⟩] := by decide
theorem test_reserved80 : events (.reserved80 127 0x12 0x3456) State.reset = some [⟨0x0A, [0xFF, 1]⟩] := by decide

/-! ADD_FRAME's parts, on the vectors of 95_test_vectors.md 2.2 to 2.10. -/

/-- The five frames of program P1, one after the other. -/
def windowP1 : List Byte :=
  bytes 24 0x1FF52003C0242B323940474E555C636A71787F868D949BA2 ++
  bytes 24 0xA9B0B7BEC5CCD3DAE1E8EFF6FD040B121920272E353C434A ++
  bytes 24 0x51585F666D747B828990E7F0A5ACB3BAC1C8CFD6DDE4EBF2 ++
  bytes 24 0xF900070E151C232A31383F464D545B626970777E858C939A ++
  bytes 24 0xA1A8AFB6BDC4CBD2D9E0E7EE5E0B630A466AB41BF122CDFB

/-- The frames of P1 that the window holds before the fifth. -/
def framesP1 : List (List Byte) := (List.range 4).map fun m => (windowP1.drop (24 * m)).take 24

/-- P1: the fifth frame gives two valid AUs, outcome OK, rate 100 and no COUNTERS. -/
theorem test_addFrame_P1 :
    events (.addFrame 0 (windowP1.drop 96)) { configured8 with frames := framesP1 } =
      some [⟨0x01, [0, 1, 0x20] ++ (windowP1.drop 5).take 53⟩, ⟨0x01, [1, 1, 0x20] ++ (windowP1.drop 60).take 48⟩,
        ⟨0x0D, [0, 0, 0, 0, 2, 0, 1, 0]⟩, ⟨0x03, [0x64]⟩] := by decide +kernel

theorem test_firecode : firecode (bytes 9 0x2003C0242B32394047) = 0x1FF5 := by decide +kernel
theorem test_crc16 : crc16 (bytes 9 0x313233343536373839) = 0xD64E := by decide +kernel
theorem test_gmul : gmul 0x53 0xCA = 0x8F ∧ gmul 0xFF 0xFF = 0xE2 ∧ gmul 0x02 0x80 = 0x1D := by decide +kernel
theorem test_ginv : ginv 0x02 = 0x8E ∧ ginv 0x53 = 0x8C := by decide +kernel

/-- The codeword of the data bytes 0 to 109 (2.5). -/
def rowCounting : List Byte := (List.range 110).map (BitVec.ofNat 8) ++ bytes 10 0xA28A690CEA30BDD4A35C

/-- R203's example: five errors are corrected, with count 5. -/
theorem test_decodeRow_five_errors :
    decodeRow (((((rowCounting.modify 0 (· ^^^ 1)).modify 50 (· ^^^ 2)).modify 109 (· ^^^ 3)).modify 110 (· ^^^ 4)).modify
      119 (· ^^^ 5)) = ⟨rowCounting, 5, false⟩ := by decide +kernel

/-- R203's example: with a sixth error the row is uncorrectable. -/
theorem test_decodeRow_six_errors :
    (decodeRow ((((((rowCounting.modify 0 (· ^^^ 1)).modify 50 (· ^^^ 2)).modify 60 (· ^^^ 6)).modify 109 (· ^^^ 3)).modify
      110 (· ^^^ 4)).modify 119 (· ^^^ 5))).uncorrectable = true := by decide +kernel

theorem test_parseHeader_four : (parseHeader 1 (bytes 11 0x00000001E03C05A0000000)).auStart = [8, 30, 60, 90, 110] := by
  decide +kernel
theorem test_parseHeader_six : (parseHeader 1 (bytes 11 0x000040014028_03C0500640)).auStart = [11, 20, 40, 60, 80, 100, 110] := by
  decide +kernel

/-- 2.9: two sub-fields, the second of which does not fit. -/
theorem test_pad_length_error :
    (processPad Config.hw (bytes 24 0x000000000000000000000000000909090909090081212002) configured8).output =
      [⟨0x07, [1, 9, 9, 9, 9, 9, 9]⟩, ⟨0x05, [0, 0x19, 0, 0x16]⟩] := by decide +kernel

/-- 2.9: a label group and another sub-field in one frame. -/
theorem test_pad_label :
    (processPad Config.hw (bytes 24 0x00000000000000DDCCBBAA2D5B4443424100630001422002) configured8).output =
      [⟨0x02, [0, 4, 0x41, 0x42, 0x43, 0x44]⟩, ⟨0x07, [1, 0xAA, 0xBB, 0xCC, 0xDD]⟩] := by decide +kernel

/-- P3: a label group over two frames; the second completes it. -/
theorem test_pad_label_over_two_frames :
    (fun a : State =>
      (a.dgActive, a.dgBuf.length, a.output, (processPad Config.hw
        (bytes 24 0x00000000000000000000000000000386212B424144202000) a).output))
      (processPad Config.hw (bytes 24 0x0000000000000000000000002C6F6C6C6548006B00422002) configured8) =
      (true, 8, [], [⟨0x02, [0x00, 0x0C] ++ bytes 12 0x48656C6C6F2C204441422B21⟩]) := by decide +kernel

/-! Witnesses: for each statement with hypotheses, values that meet them. -/

/-- A state in the middle of a session, with a command in its stream. -/
def busy (command : List Byte) : State :=
  { State.reset with
    cfgBitrate := 8
    frames := [List.replicate 24 0]
    syncState := .locked
    lastGood := LastGood.store (parseHeader 1 (bytes 5 0x00002003C0))
    nominalAus := 2
    counters := { Counters.zero with auErr := 1, auFwd := 2, sfCount := 1 }
    srHist := [(1, 2)]
    successRate := 50
    xpadPrevLen := 6
    xpadPrevApp := 12
    dgActive := true
    dgBuf := [0x41, 0x00, 0x41]
    asm := { LabelAsm.cleared with active := true, slots := LabelAsm.cleared.slots.set 1 ⟨true, [0x43]⟩ }
    label := ⟨true, 0, [0x41]⟩
    input := command
    output := [⟨0x03, [50]⟩]
    accepted := 1 }

theorem witness_DecodeInvertsEncode : (Instr.addFrame 1 [2, 3]).wellFormed = true := by decide

theorem witness_EncodeInvertsDecode : decode [0x03, 1, 0, 1, 5, 6] = .ok (.addFrame 1 [5], [6]) := rfl

/-- The clauses of the extent: the whole payload, one byte less, no payload, and the neighbours of opcode 0x03. -/
theorem witness_CommandExtent :
    (be16 0 1).toNat ≤ [(5 : Byte)].length ∧ ¬(be16 0 1).toNat ≤ ([] : List Byte).length ∧
    (be16 0 0).toNat ≤ ([] : List Byte).length ∧ (0x02 : Byte) ≠ 0x03 ∧ (0x04 : Byte) ≠ 0x03 := by decide

theorem witness_StepRunsDecodedCommand :
    (busy [0, 0, 0, 0, 9]).acceptsNow = true ∧ decode (busy [0, 0, 0, 0, 9]).input = .ok (.nop 0 0, [9]) := ⟨rfl, rfl⟩

/-- The four clauses of the hold, each at its boundary. -/
theorem witness_StepHoldsExactlyWhen :
    refusal (step { busy [0, 0, 0, 0] with acceptsNow := false, accepted := 0 }) = some .awaitingConsumer ∧
    refusal (step (busy [])) = some .endOfInput ∧
    refusal (step (busy [0, 0, 0])) = some .incompleteCommand ∧
    refusal (step (busy [3, 0, 0, 2, 1])) = some .incompleteCommand ∧
    (nextState (step (busy [3, 0, 0, 1, 1]))).isSome = true ∧
    (nextState (step { busy [0, 0, 0, 0] with acceptsNow := false })).isSome = true := by decide +kernel

/-- A run in which the consumer accepts a pending record at time 1. -/
def acceptingRun : Nat → State
  | 0 => { busy [0, 0, 0, 0] with acceptsNow := false, accepted := 0 }
  | _ + 1 => { busy [0, 0, 0, 0] with acceptsNow := false }

theorem witness_StepHoldsExactlyWhen_run : Run acceptingRun ∧ ConsumerReady acceptingRun := by
  refine ⟨fun n => ?_, fun n => ⟨n + 1, Nat.le_succ n, ?_⟩⟩
  · cases n with
    | zero => exact .accept (acceptingRun 0) 1
    | succ n => exact .idle _
  · cases n <;> exact Nat.le_refl 1

theorem witness_StepConsumesItsCommand :
    (∃ t, step (busy [0, 0, 0, 0, 5, 0, 0, 0, 9]) = .next t) ∧
    StreamAligned [.nop 0 0, .snapshot 0 0] (busy [0, 0, 0, 0, 5, 0, 0, 0, 9]) :=
  ⟨⟨_, rfl⟩, by decide, ⟨[9], rfl⟩⟩

/-- A reserved opcode, a defined one whose `rsv` is not 0, and ADD_FRAME with its payload. -/
theorem witness_IllegalWordsAreConsumed :
    (0x07 ≤ (0x07 : Byte).toNat ∧ ([] : List Byte).length = if (0x07 : Byte) = 0x03 then (be16 0 1).toNat else 0) ∧
    ((1 : Byte) ≠ 0 ∧ ([] : List Byte).length = if (0x06 : Byte) = 0x03 then (be16 0 1).toNat else 0) ∧
    ((1 : Byte) ≠ 0 ∧ [(7 : Byte)].length = if (0x03 : Byte) = 0x03 then (be16 0 1).toNat else 0) := by decide

theorem witness_CommandsReadOnlyTheBlockState : (busy [1]).blockOnly = { busy [] with output := [], accepted := 0 } := rfl

theorem witness_LaterBytesDoNotChangeAStep : ∃ t, step (busy [3, 0, 0, 1, 1]) = .next t := ⟨_, rfl⟩

/-- CONFIG's cases at the bounds of the legal bitrates. -/
theorem witness_ConfigEffect :
    ¬((0 : Half).toNat % 8 = 0 ∧ 8 ≤ (0 : Half).toNat ∧ (0 : Half).toNat ≤ 192) ∧
    ¬((200 : Half).toNat % 8 = 0 ∧ 8 ≤ (200 : Half).toNat ∧ (200 : Half).toNat ≤ 192) ∧
    ((8 : Half).toNat % 8 = 0 ∧ 8 ≤ (8 : Half).toNat ∧ (8 : Half).toNat ≤ 192 ∧ 8 = (busy []).cfgBitrate) ∧
    ((192 : Half).toNat % 8 = 0 ∧ 8 ≤ (192 : Half).toNat ∧ (192 : Half).toNat ≤ 192 ∧ 192 ≠ (busy []).cfgBitrate) := by decide

theorem witness_ReadRegEffect : (0x18 : Byte).toNat ≤ 0x18 ∧ ¬(0x19 : Byte).toNat ≤ 0x18 := by decide

theorem witness_StatusRegisterFields : (busy []).frames.length ≤ 4 ∧ [[], [], [], [(0 : Byte)]].length ≤ 4 := by decide

theorem witness_OtherRegisterFields :
    (0x0C ≤ (0x0C : Byte).toNat ∧ (0x0C : Byte).toNat ≤ 0x17) ∧ (0x0C ≤ (0x17 : Byte).toNat ∧ (0x17 : Byte).toNat ≤ 0x17) ∧
    (busy []).cfgBitrate.toNat / 8 < 256 ∧ (busy []).label.text.length < 256 := by decide

theorem witness_ReservedOpcodeEffect :
    0x07 ≤ (Instr.reserved07 0 0).opcode.toNat ∧ 0x07 ≤ (Instr.reserved08 0 0 0).opcode.toNat ∧
    0x07 ≤ (Instr.reserved10 0 0 0).opcode.toNat ∧ 0x07 ≤ (Instr.reserved20 0 0 0).opcode.toNat ∧
    0x07 ≤ (Instr.reserved40 0 0 0).opcode.toNat ∧ 0x07 ≤ (Instr.reserved80 0 0 0).opcode.toNat := by decide

theorem witness_NonzeroRsvEffect :
    ((Instr.nop 1 0).opcode.toNat ≤ 6 ∧ (Instr.nop 1 0).rsv ≠ 0) ∧
    ((Instr.readLabel 255 0).opcode.toNat ≤ 6 ∧ (Instr.readLabel 255 0).rsv ≠ 0) ∧
    ((Instr.addFrame 1 [0]).opcode.toNat ≤ 6 ∧ (Instr.addFrame 1 [0]).rsv ≠ 0) := by decide

theorem witness_ReadersChangeNoBlockState :
    (Instr.nop 0 0).opcode ∈ [(0x00 : Byte), 0x04, 0x05, 0x06] ∧ (Instr.readReg 0 0).opcode ∈ [(0x00 : Byte), 0x04, 0x05, 0x06] ∧
    (Instr.snapshot 0 0).opcode ∈ [(0x00 : Byte), 0x04, 0x05, 0x06] ∧
    (Instr.readLabel 0 0).opcode ∈ [(0x00 : Byte), 0x04, 0x05, 0x06] := by decide

theorem busy_config : ConfigInv Config.hw (busy [0, 0, 0, 0]) where
  bitrate := .inr (by decide)
  fatal := by intro h; cases h

theorem busy_header : HeaderInv Config.hw (busy [0, 0, 0, 0]) where
  config := busy_config
  desync := by decide
  locked := fun _ => rfl
  cleared := by intro h; cases h
  table := fun _ => { count := by decide, first := by decide, last := by decide, increasing := by decide, unused := by decide }
  nominal := by decide

theorem busy_label : LabelInv (busy [0, 0, 0, 0]) where
  inactive := by intro h; cases h
  present := by decide
  absent := by decide
  partialLabel := by decide
  noLabel := by intro h; cases h
  labelLen := by decide

theorem witness_StepKeepsWindowInv : WindowInv Config.hw (busy [0, 0, 0, 0]) ∧ ∃ t, step (busy [0, 0, 0, 0]) = .next t :=
  ⟨{ config := busy_config, frameLen := by decide, fill := by decide, unconfigured := by intro h; cases h }, _, rfl⟩

theorem witness_StepKeepsHeaderInv : HeaderInv Config.hw (busy [0, 0, 0, 0]) ∧ ∃ t, step (busy [0, 0, 0, 0]) = .next t :=
  ⟨busy_header, _, rfl⟩

theorem witness_StepKeepsTelemetryInv :
    HeaderInv Config.hw (busy [0, 0, 0, 0]) ∧ TelemetryInv Config.hw (busy [0, 0, 0, 0]) ∧
      ∃ t, step (busy [0, 0, 0, 0]) = .next t :=
  ⟨busy_header, { window := by decide, pairs := by decide, rate := by decide, bound := by decide, forwarded := by decide },
    _, rfl⟩

theorem witness_StepKeepsPadInv : PadInv (busy [0, 0, 0, 0]) ∧ ∃ t, step (busy [0, 0, 0, 0]) = .next t :=
  ⟨{ prevLen := by decide, closed := (by intro h; cases h), partialGroup := by decide, bound := by decide }, _, rfl⟩

theorem witness_StepKeepsLabelInv : LabelInv (busy [0, 0, 0, 0]) ∧ ∃ t, step (busy [0, 0, 0, 0]) = .next t :=
  ⟨busy_label, _, rfl⟩

theorem witness_StepEmitsWellFormedRecords :
    ConfigInv Config.hw (busy [0, 0, 0, 0]) ∧ LabelInv (busy [0, 0, 0, 0]) ∧ (∀ e ∈ (busy [0, 0, 0, 0]).output, EventOk e) ∧
      ∃ t, step (busy [0, 0, 0, 0]) = .next t := ⟨busy_config, busy_label, by decide, _, rfl⟩

theorem witness_EventStreamReadsBack : ∀ e ∈ (busy []).output, EventOk e := by decide

/-- The two ways a frame is not accepted. -/
theorem witness_FramingErrorEffect :
    ¬(State.reset.cfgBitrate ≠ 0 ∧ ([] : List Byte).length = 24 * (State.reset.cfgBitrate.toNat / 8)) ∧
    ¬((busy []).cfgBitrate ≠ 0 ∧ (List.replicate 23 (0 : Byte)).length = 24 * ((busy []).cfgBitrate.toNat / 8)) := by decide

theorem witness_AcceptedFrameJoinsWindow :
    (busy []).cfgBitrate ≠ 0 ∧ (List.replicate 24 (1 : Byte)).length = 24 * ((busy []).cfgBitrate.toNat / 8) ∧
    (busy []).frames.length ≠ 4 ∧ 0 < (busy []).frameLen ∧ (∀ f ∈ (busy []).frames, f.length = (busy []).frameLen) ∧
    23 < (busy []).frames.length * (busy []).frameLen := by decide

theorem witness_FifthFrameRunsThePipeline :
    configured8.cfgBitrate ≠ 0 ∧ (windowP1.drop 96).length = 24 * (configured8.cfgBitrate.toNat / 8) ∧
    framesP1.length = 4 := by decide +kernel

theorem witness_AddFrameEventOrder :
    (busy []).cfgBitrate ≠ 0 ∧ (List.replicate 24 (1 : Byte)).length = 24 * ((busy []).cfgBitrate.toNat / 8) := by decide

/-- A window whose header fails the raw firecode, and one whose header passes it. -/
def rawWindow (b : Byte) (failRun : Byte) (g : LastGood) : State :=
  { configured8 with frames := [b :: List.replicate 23 0], failRun := failRun, lastGood := g }

/-- This hardware's parameters with the raw firecode check (R158). -/
def rawParams : Params := { Config.hw with fcStage := false }

/-- The clauses of the header state machine that turn on a failure: at the threshold, below it with and without a sticky
configuration. -/
theorem witness_HeaderStateMachine_fail :
    headerPasses rawParams (rawWindow 1 2 LastGood.cleared).window [] = false ∧
    rawParams.desyncThreshold ≤ min ((2 : Byte).toNat + 1) 255 ∧ ¬rawParams.desyncThreshold ≤ min ((1 : Byte).toNat + 1) 255 ∧
    (busy []).lastGood.valid = true ∧ LastGood.cleared.valid = false := by decide +kernel

/-- The clauses that turn on a pass: a valid table (P1) and an invalid one (an all-zero superframe, R183). -/
theorem witness_HeaderStateMachine_pass :
    headerPasses rawParams windowP1 [] = true ∧ tableValid (parseHeader 1 windowP1) = true ∧
    headerPasses rawParams (List.replicate 120 0) [] = true ∧ tableValid (parseHeader 1 (List.replicate 110 0)) = false := by
  decide +kernel

/-- The outcomes that a failure can have: at the last count below the threshold with and without a sticky configuration, and
at the threshold with one. -/
theorem witness_PipelineReport :
    ((LastGood.store (parseHeader 1 windowP1)).valid = true ∧ min ((1 : Byte).toNat + 1) 255 < rawParams.desyncThreshold) ∧
    ¬(LastGood.cleared.valid = true ∧ min ((1 : Byte).toNat + 1) 255 < rawParams.desyncThreshold) ∧
    ¬((LastGood.store (parseHeader 1 windowP1)).valid = true ∧ min ((2 : Byte).toNat + 1) 255 < rawParams.desyncThreshold) := by
  decide +kernel

/-- A window with an uncorrectable row. -/
theorem witness_PipelineCountsRsResults :
    0 < (rsDecode 1 ((List.range 120).map fun k => if k < 6 then BitVec.ofNat 8 (k * k + 1) else 0)).unc.countP id := by
  decide +kernel

theorem witness_FallbackUsesTheAcceptedHeader :
    (rawWindow 1 1 (LastGood.store (parseHeader 1 windowP1))).subchannel = 1 ∧
    headerPasses rawParams (rawWindow 1 1 (LastGood.store (parseHeader 1 windowP1))).window [] = false ∧
    (1 : Byte).toNat + 1 < rawParams.desyncThreshold ∧ rawParams.desyncThreshold ≤ 255 := by decide +kernel

theorem witness_AccessUnitsTileTheData :
    (windowP1.take 110).length = 110 * 1 ∧ tableValid (parseHeader 1 (windowP1.take 110)) = true := by decide +kernel

theorem witness_UncorrectableRowTaintsLongAus :
    1 < 2 ∧ [false, true].getD 1 false = true ∧ [5, 7].getD 0 0 + 2 ≤ [5, 7].getD 1 0 := by decide

theorem witness_GfMultiplicationIsAField : (0xFF : Byte) ≠ 0 := by decide

/-- The all-zero codeword and the codeword of the data `d_109 = 01` (2.5). -/
theorem witness_CodewordsDifferInElevenPositions :
    isCodeword (List.replicate 120 0) = true ∧ isCodeword (List.replicate 109 0 ++ bytes 11 0x01D8C29F6FC75E5F719DC1) = true ∧
    List.replicate 120 0 ≠ List.replicate 109 0 ++ bytes 11 0x01D8C29F6FC75E5F719DC1 := by decide +kernel

theorem witness_DecodeRowIsBoundedDistance :
    (rowCounting.modify 3 (· ^^^ 9)).length = 120 ∧ isCodeword rowCounting = true ∧
    rowDist rowCounting (rowCounting.modify 3 (· ^^^ 9)) ≤ 5 := by decide +kernel

theorem witness_RsDecodeInterleaves : 1 < 2 ∧ 109 < 110 := by decide

theorem witness_CleanWindowDecodesToItself :
    (List.replicate 240 (0 : Byte)).length = 120 * 2 ∧
    ∀ j, j < 2 → isCodeword (matrixRow 2 (List.replicate 240 0) j) = true := by decide +kernel

theorem witness_FirecodeIsLinear : [(1 : Byte), 2].length = [(3 : Byte), 4].length := by decide

theorem witness_FirecodeDetectsEverySingleBitError :
    (windowP1.take 11).length = 11 ∧ firecodeOk (windowP1.take 11) = true ∧ 10 < 11 ∧ 7 < 8 := by decide +kernel

theorem witness_FrameWithoutXpadDoesNothing :
    (0x40 : Byte).extractLsb' 6 2 ≠ 0 ∧ (0x00 : Byte).extractLsb' 4 2 = 0 ∧ (0x30 : Byte).extractLsb' 4 2 = 3 := by decide

theorem witness_ShortXpadEffect : (0x1F : Byte).extractLsb' 4 4 = 0x1 := by decide

/-- A list that ends in an end marker, one of four indicators without it, the empty list, and a sub-field of each length with
types 2, 3 and 12. -/
theorem witness_VariableXpadEffect :
    (0x20 : Byte).extractLsb' 4 4 = 0x2 ∧ (0x02 : Byte).getLsbD 1 = true ∧ (0x00 : Byte).getLsbD 1 = false ∧
    SubfieldOk (0x02, List.replicate 4 0) ∧ SubfieldOk (0x23, List.replicate 6 0) ∧ SubfieldOk (0xEC, List.replicate 48 0) ∧
    ListEnd 0 [0x00] ∧ ListEnd 1 [0xE0] ∧ ListEnd 3 [0x00] ∧ ListEnd 4 [] ∧
    ([1, 2, 3, 4, 5, 6] : List Byte).length = (busy []).xpadPrevLen.toNat ∧
    ([] : List Byte).length = State.reset.xpadPrevLen.toNat := by
  refine ⟨by decide, by decide, by decide, by decide, by decide, by decide, ?_, ?_, ?_, ?_, by decide, by decide⟩
  · exact .inr ⟨by decide, _, rfl, by decide⟩
  · exact .inr ⟨by decide, _, rfl, by decide⟩
  · exact .inr ⟨by decide, _, rfl, by decide⟩
  · exact .inl ⟨rfl, rfl⟩

/-- The overrunning list of 2.9 (one sub-field of 6 bytes fits, one of 16 does not, one byte short), a list of four, and a
continued length above the X-PAD. -/
theorem witness_PadLengthErrorAtMostOncePerFrame :
    ((0x20 : Byte).extractLsb' 4 4 = 0x2 ∧ (0x02 : Byte).getLsbD 1 = true ∧ SubfieldOk (0x21, List.replicate 6 9) ∧
      (0x81 : Byte).extractLsb' 0 5 ≠ (0 : BitVec 5) ∧ ListEnd (1 + 1 + 0) [0x00] ∧ ListEnd (1 + 1 + 2) [] ∧
      (List.replicate 15 (0 : Byte)).length < declaredLen 0x81) ∧
    ((0x00 : Byte).getLsbD 1 = false ∧ ([1, 2, 3, 4, 5] : List Byte).length < (busy []).xpadPrevLen.toNat) := by
  refine ⟨⟨by decide, by decide, by decide, by decide, ?_, ?_, by decide⟩, by decide, by decide⟩
  · exact .inr ⟨by decide, _, rfl, by decide⟩
  · exact .inl ⟨rfl, rfl⟩

/-- The group g0 of 1.5 in an open buffer, whole, in two pieces, and with all but its last byte already there; and a command
group of 2.10. -/
theorem witness_WholeGroupIsJudgedOnce :
    (setGroup true [0x41] State.reset).dgActive = true ∧ (setGroup true [0x41] State.reset).dgBuf = [0x41] ∧
    (bytes 6 0x41004142356C).length = 2 + (((byteAt (bytes 6 0x41004142356C) 0).extractLsb' 0 4).toNat + 1) + 2 ∧
    (byteAt (bytes 6 0x41004142356C) 0).getLsbD 4 = false ∧
    [0x41] ++ (bytes 2 0x0041 ++ bytes 3 0x42356C) = bytes 6 0x41004142356C ∧ bytes 3 0x42356C ≠ [] ∧
    bytes 5 0x4100414235 ++ [0x6C] = bytes 6 0x41004142356C ∧
    (byteAt (bytes 4 0x1100D2B2) 0).getLsbD 4 = true ∧ ((byteAt (bytes 4 0x1100D2B2) 0).extractLsb' 0 4).toNat ≠ 2 := by
  decide +kernel

theorem witness_LabelGroupReachesTheAssembler :
    (setGroup true [] State.reset).dgActive = true ∧ (setGroup true [] State.reset).dgBuf = [] ∧
    1 ≤ [(0x41 : Byte)].length ∧ (List.replicate 16 (0x41 : Byte)).length ≤ 16 ∧ (1 : BitVec 4).extractLsb' 0 3 ≠ 0 := by decide

/-- The clauses of a whole group: a wrong CRC, a command group, a first segment, a malformed segment, a later segment (the
groups of 2.10). -/
theorem witness_WholeGroupEffect :
    (crcOk (bytes 6 0x610041420223) = false ∧ Config.hw.dlCrcCheck = true) ∧
    (crcOk (bytes 4 0x1100D2B2) = true ∧ (byteAt (bytes 4 0x1100D2B2) 0).getLsbD 4 = true) ∧
    (crcOk (bytes 6 0x41004142356C) = true ∧ (byteAt (bytes 6 0x41004142356C) 0).getLsbD 6 = true) ∧
    (crcOk (bytes 6 0x02004344C688) = true ∧ (byteAt (bytes 6 0x02004344C688) 0).getLsbD 6 = false ∧
      (byteAt (bytes 6 0x02004344C688) 1).extractLsb' 4 3 = 0) ∧
    (crcOk (bytes 6 0x011043441E37) = true ∧ (byteAt (bytes 6 0x011043441E37) 1).extractLsb' 4 3 = 1) := by decide +kernel

theorem witness_LabelAssemblesInAnyOrder :
    LabelInv { busy [] with asm := { LabelAsm.cleared with toggle := true } } ∧ 1 ≤ [[(0x41 : Byte)], [0x42], [0x43]].length ∧
    [[(0x41 : Byte)], [0x42], [0x43]].length ≤ 8 ∧ [2, 0, 1].Perm (List.range 3) :=
  ⟨{ inactive := fun _ => rfl, present := by decide, absent := by decide, partialLabel := by decide,
     noLabel := (by intro h; cases h), labelLen := by decide }, by decide, by decide, by decide⟩

theorem witness_ToggleChangeDiscardsTheAssembly : (busy []).asm.active = true ∧ true ≠ (busy []).asm.toggle := by decide

theorem witness_LabelChangesOnlyWhenPublished : ∃ t, exec (.channelReset 0 0) (busy []) = .next t := ⟨_, rfl⟩

theorem witness_CountersNeverDecrease : ∃ t, exec (.config 0 16) (busy []) = .next t := ⟨_, rfl⟩

end Sys2Proof.Tests
end

/-! SUPPORT. The fields of registers STATUS, CONFIG, LAST_GOOD, AU_START and LABEL_INFO (R42, R43, R46, R47): what one field
shows through a window of the word's bits, what each register shows through it, and the two statements. -/

namespace Sys2Proof.Machine

/-! One field, seen through `len` bits of the register from bit `start` on. -/

/-- A field read back at its own bits is its value, cut to its width (R40). -/
@[simp] theorem extractLsb'_field_same {value hi lo len : Nat} (hlen : hi + 1 = lo + len) (hhi : hi < 32) :
    (field value hi lo).extractLsb' lo len = BitVec.ofNat len value := by
  apply BitVec.eq_of_getLsbD_eq
  intro i hlt
  have hword : lo + i < 32 := by omega
  have hfield : lo + i < hi + 1 := by omega
  rw [BitVec.getLsbD_extractLsb', field_getLsbD, BitVec.getLsbD_ofNat]
  simp [hlt, hword, hfield]

/-- A field is zero outside its own bits (R40). -/
@[simp] theorem extractLsb'_field_disjoint {value hi lo start len : Nat} (h : hi < start ∨ start + len ≤ lo) :
    (field value hi lo).extractLsb' start len = 0#len := by
  apply BitVec.eq_of_getLsbD_eq
  intro i hlt
  have hout : ¬lo ≤ start + i ∨ ¬start + i < hi + 1 := by omega
  rw [BitVec.getLsbD_extractLsb', field_getLsbD, BitVec.getLsbD_zero]
  rcases hout with hbelow | habove
  · simp [hbelow]
  · simp [habove]

/-- A flag is zero outside its bit (R40). -/
@[simp] theorem extractLsb'_flagBit_disjoint {b : Bool} {pos start len : Nat} (h : pos < start ∨ start + len ≤ pos) :
    (flagBit b pos).extractLsb' start len = 0#len :=
  extractLsb'_field_disjoint h

/-! Each register, field by field: at a field's bits every other field of the word is zero. -/

/-- The flags of STATUS, and its bit 7 (R43). -/
theorem statusReg_flags (s : State) :
    (statusReg s).getLsbD 0 = s.configured ∧ (statusReg s).getLsbD 1 = s.fatal ∧ (statusReg s).getLsbD 7 = false ∧
      (statusReg s).getLsbD 16 = s.lastGood.valid ∧ (statusReg s).getLsbD 17 = s.label.valid ∧
      (statusReg s).getLsbD 18 = s.asm.active ∧ (statusReg s).getLsbD 19 = s.dgActive := by
  simp only [statusReg_getLsbD, flagBit_getLsbD, field_getLsbD]
  simp

/-- The wider fields of STATUS, and its top bits (R43). -/
theorem statusReg_fields (s : State) :
    (statusReg s).extractLsb' 2 3 = BitVec.ofNat 3 s.frames.length ∧
      (statusReg s).extractLsb' 5 2 = s.syncState.code.setWidth 2 ∧
      (statusReg s).extractLsb' 8 8 = s.failRun ∧ (statusReg s).extractLsb' 20 12 = 0 := by
  simp [statusReg, BitVec.extractLsb'_or]

/-- The fields of CONFIG (R42). -/
theorem configReg_fields (s : State) :
    (configReg s).extractLsb' 0 16 = s.cfgBitrate ∧
      (configReg s).extractLsb' 16 8 = BitVec.ofNat 8 (s.cfgBitrate.toNat / 8) ∧ (configReg s).extractLsb' 24 8 = 0 := by
  simp [configReg, BitVec.extractLsb'_or, State.subchannel]

/-- The fields of LAST_GOOD (R46). -/
theorem lastGoodReg_fields (s : State) :
    (lastGoodReg s).extractLsb' 0 8 = s.lastGood.hdr ∧ (lastGoodReg s).extractLsb' 8 4 = s.lastGood.numAus ∧
      (lastGoodReg s).extractLsb' 12 19 = 0 ∧ (lastGoodReg s).getLsbD 31 = s.lastGood.valid := by
  have hvalid : (lastGoodReg s).getLsbD 31 = s.lastGood.valid := by
    rw [lastGoodReg_getLsbD, flagBit_getLsbD, field_getLsbD, field_getLsbD]
    simp
  refine ⟨?_, ?_, ?_, hvalid⟩ <;> simp [lastGoodReg, BitVec.extractLsb'_or]

/-- The fields of LABEL_INFO (R47). -/
theorem labelInfoReg_fields (s : State) :
    (labelInfoReg s).extractLsb' 0 8 = BitVec.ofNat 8 s.label.text.length ∧
      (labelInfoReg s).extractLsb' 8 4 = s.label.charset ∧
      (labelInfoReg s).extractLsb' 12 19 = 0 ∧ (labelInfoReg s).getLsbD 31 = s.label.valid := by
  have hvalid : (labelInfoReg s).getLsbD 31 = s.label.valid := by
    rw [labelInfoReg_getLsbD, flagBit_getLsbD, field_getLsbD, field_getLsbD]
    simp
  refine ⟨?_, ?_, ?_, hvalid⟩ <;> simp [labelInfoReg, BitVec.extractLsb'_or]

/-! The AU Start Table in the register map, and reset. -/

/-- AU_START0 to AU_START9 read the ten entries of the AU Start Table (R40, R46). -/
theorem readRegister_auStart (p : Params) (s : State) (k : Fin 10) :
    readRegister p s (BitVec.ofNat 8 (0x0D + k.val)) = some (s.lastGood.auStart[k].setWidth 32) := by
  fin_cases k <;> rfl

/-- CONFIG, LAST_GOOD, the AU Start Table and LABEL_INFO read 0 after reset (R42, R46, R47). -/
theorem readRegister_reset_eq_zero {p : Params} {idx : Byte}
    (h : idx = 0x01 ∨ (0x0C ≤ idx.toNat ∧ idx.toNat ≤ 0x17)) : readRegister p State.reset idx = some 0 := by
  have hcases : idx = 0x01 ∨ idx = 0x0C ∨ idx = 0x17 ∨ ∃ k : Fin 10, idx = BitVec.ofNat 8 (0x0D + k.val) := by
    by_cases hau : 0x0D ≤ idx.toNat ∧ idx.toNat ≤ 0x16
    · exact .inr <| .inr <| .inr ⟨⟨idx.toNat - 0x0D, by omega⟩, by apply BitVec.eq_of_toNat_eq; simp; omega⟩
    · bv_omega
  rcases hcases with rfl | rfl | rfl | ⟨k, rfl⟩
  · rfl
  · rfl
  · rfl
  · rw [readRegister_auStart]
    simp [State.reset, LastGood.cleared]

/-- Settles O16: each clause is a field of `statusReg`; a fill of at most 4 fits its three bits. -/
theorem statusRegisterFields : Obligations.StatusRegisterFields := by
  refine ⟨rfl, fun s hfill => ⟨statusReg s, rfl, ?_⟩⟩
  obtain ⟨hconfigured, hfatal, h7, hlg, hlabel, hasm, hdg⟩ := statusReg_flags s
  obtain ⟨hframes, hsync, hrun, htop⟩ := statusReg_fields s
  have hfillBits : ((statusReg s).extractLsb' 2 3).toNat = s.frames.length := by
    rw [hframes, BitVec.toNat_ofNat, Nat.mod_eq_of_lt (by omega)]
  refine ⟨?_, hfatal, hfillBits, ?_, h7, hrun, hlg, hlabel, hasm, hdg, htop⟩
  · rw [hconfigured, State.configured, bne, Bool.beq_eq_decide_eq, decide_not]
  · rw [hsync]
    cases s.syncState <;> rfl

/-- Settles O17: each clause is a field of its register; `s` and the label's length fit their 8 bits by hypothesis. -/
theorem otherRegisterFields : Obligations.OtherRegisterFields := by
  refine ⟨fun idx => readRegister_reset_eq_zero, fun s hs hlen =>
    ⟨configReg s, lastGoodReg s, labelInfoReg s, rfl, rfl, rfl, ?_⟩⟩
  obtain ⟨hbitrate, hsub, hctop⟩ := configReg_fields s
  obtain ⟨hhdr, haus, hgzero, hgvalid⟩ := lastGoodReg_fields s
  obtain ⟨htext, hcharset, hlzero, hlvalid⟩ := labelInfoReg_fields s
  have hsubBits : ((configReg s).extractLsb' 16 8).toNat = s.cfgBitrate.toNat / 8 := by
    rw [hsub, BitVec.toNat_ofNat, Nat.mod_eq_of_lt hs]
  have htextBits : ((labelInfoReg s).extractLsb' 0 8).toNat = s.label.text.length := by
    rw [htext, BitVec.toNat_ofNat, Nat.mod_eq_of_lt hlen]
  exact ⟨hbitrate, hsubBits, hctop, hhdr, haus, hgzero, hgvalid, readRegister_auStart _ s,
    htextBits, hcharset, hlzero, hlvalid⟩

end Sys2Proof.Machine

/-! SUPPORT. Illegal words (R84, R85): what the decoder makes of a word whose payload is given, the step on a stream whose
head decodes, the two ways a command is illegal, and the statement. -/

namespace Sys2Proof

/-- A word with the payload bytes of its extent decodes to a command with the word's `opcode` and `rsv`, and leaves the
bytes after it (R82). -/
theorem decode_word_payload {op rsv a1 a0 : Byte} {payload tail : List Byte}
    (hlen : payload.length = if op = 0x03 then (be16 a1 a0).toNat else 0) :
    ∃ i, decode (op :: rsv :: a1 :: a0 :: (payload ++ tail)) = .ok (i, tail) ∧ i.opcode = op ∧ i.rsv = rsv := by
  rw [decode_word]
  by_cases h3 : op = 0x03
  · rw [if_pos h3] at hlen
    exact ⟨.addFrame rsv payload, by simp [h3, ← hlen], h3.symm, rfl⟩
  · rw [if_neg h3, List.length_eq_zero_iff] at hlen
    obtain ⟨hop, hrsv, -⟩ := decodeWord_fields op rsv (be16 a1 a0) h3
    exact ⟨decodeWord op rsv (be16 a1 a0), by rw [if_neg h3, hlen, List.nil_append], hop, hrsv⟩

end Sys2Proof

namespace Sys2Proof.Machine

/-- With no record held up, a step executes the command that the head of the stream decodes to (R15, R78). -/
theorem step_of_decode {s : State} {i : Instr} {rest : List Byte}
    (hready : s.acceptsNow = true ∨ s.output.length ≤ s.accepted) (hd : decode s.input = .ok (i, rest)) :
    step s = exec i (s.afterFetch rest) := by
  have hfree : ¬(s.acceptsNow = false ∧ s.accepted < s.output.length) := by
    rintro ⟨hnow, hpending⟩
    rcases hready with h | h
    · exact absurd (hnow.symm.trans h) (by decide)
    · omega
  rw [step, fetch_consumerTakes, if_neg hfree, hd]

/-- A defined command with a non-zero `rsv` has no effect but CommandError code 2 (R85). -/
theorem checkRsv_of_ne_zero {op rsv : Byte} {command : State → State} (h : rsv ≠ 0) (s : State) :
    checkRsv op rsv command s = commandError op 2 s := if_neg h

/-- A command of a reserved row is CommandError code 1, whatever its `rsv` (R84). -/
theorem exec_of_reserved {i : Instr} (h : 0x07 ≤ i.opcode.toNat) (s : State) :
    exec i s = .next (commandError i.opcode 1 s) := by
  have hrow := mt (opcode_range i).2 (by omega)
  cases i with
  | reserved07 | reserved08 | reserved10 | reserved20 | reserved40 | reserved80 => rfl
  | nop | config | channelReset | addFrame | readReg | snapshot | readLabel => exact absurd trivial hrow

/-- A command of a defined row with a non-zero `rsv` is CommandError code 2 (R85). -/
theorem exec_of_rsv_ne_zero {i : Instr} (hdef : i.opcode.toNat ≤ 0x06) (h : i.rsv ≠ 0) (s : State) :
    exec i s = .next (commandError i.opcode 2 s) := by
  have hrow := (opcode_range i).1 hdef
  cases i with
  | nop | config | channelReset | addFrame | readReg | snapshot | readLabel =>
    exact congrArg Host.Outcome.next (checkRsv_of_ne_zero h s)
  | reserved07 | reserved08 | reserved10 | reserved20 | reserved40 | reserved80 => exact hrow.elim

/-- An illegal command is CommandError alone; the reserved opcode is judged before `rsv` (R84, R85, R128). -/
theorem exec_of_illegal {i : Instr} (h : 0x07 ≤ i.opcode.toNat ∨ i.rsv ≠ 0) (s : State) :
    exec i s = .next (commandError i.opcode (if 0x07 ≤ i.opcode.toNat then 1 else 2) s) := by
  by_cases hres : 0x07 ≤ i.opcode.toNat
  · rw [if_pos hres, exec_of_reserved hres]
  · rw [if_neg hres, exec_of_rsv_ne_zero (by omega) (h.resolve_left hres)]

/-- CommandError changes nothing of the block's own state (R308). -/
@[simp] theorem commandError_blockOnly (op code : Byte) (s : State) :
    (commandError op code s).blockOnly = s.blockOnly := rfl

/-- Fetching changes nothing of the block's own state (R20). -/
@[simp] theorem State.afterFetch_blockOnly (s : State) (rest : List Byte) :
    (s.afterFetch rest).blockOnly = s.blockOnly := rfl

/-- Settles O8: the word decodes to a command with its `opcode` and `rsv`, and executing an illegal command is CommandError
at the state with the word's bytes consumed. -/
theorem illegalWordsAreConsumed : Obligations.IllegalWordsAreConsumed := by
  intro s op rsv a1 a0 payload tail hready hin hlen hillegal
  obtain ⟨i, hd, rfl, rfl⟩ := decode_word_payload (rsv := rsv) (tail := tail) hlen
  rw [← hin] at hd
  exact ⟨_, (step_of_decode hready hd).trans (exec_of_illegal hillegal _), rfl, by simp, rfl⟩

end Sys2Proof.Machine

/-! SUPPORT. The errors the pipeline raises, stage by stage (R157, R160 to R165), and the statement on its RS results. -/

namespace Sys2Proof.Machine

/-- The errors that the header of a superframe raises: HeaderIntegrityError when it fails, AUBoundaryError when it passes
with an invalid table (R161, R162). -/
def headerErrors (pass : Bool) (cand : HeaderConfig) : List BlockError :=
  if pass then if tableValid cand then [] else [.auBoundary] else [.headerIntegrity]

/-- The errors that the RS results of a superframe raise (R165). -/
def rsErrors (nunc : Nat) : List BlockError :=
  if 0 < nunc then [.uncorrectableCodeword nunc] else []

theorem headerPassed_raised (cand : HeaderConfig) (s : State) :
    (headerPassed cand s).raised = s.raised ++ headerErrors true cand := by
  unfold headerPassed headerErrors
  cases tableValid cand <;> simp

theorem headerFailed_raised (p : Params) (cand : HeaderConfig) (s : State) :
    (headerFailed p s).raised = s.raised ++ headerErrors false cand := by
  unfold headerFailed
  split <;> rfl

@[simp] theorem applyHeader_raised (p : Params) (pass : Bool) (cand : HeaderConfig) (s : State) :
    (applyHeader p pass cand s).raised = s.raised ++ headerErrors pass cand := by
  cases pass with
  | true => exact headerPassed_raised cand s
  | false => exact headerFailed_raised p cand s

@[simp] theorem applyRs_raised (corr nunc : Nat) (s : State) :
    (applyRs corr nunc s).raised = s.raised ++ rsErrors nunc := by
  unfold applyRs rsErrors
  split <;> simp

/-- The errors of a superframe, in the order raised: those of its header, then that of its RS results. -/
theorem superframe_raised (p : Params) (s : State) :
    (superframe p s).raised = s.raised ++ headerErrors (sfPass p s) (sfCand s) ++
      rsErrors ((rsDecode s.subchannel s.window).unc.countP id) := by
  simp [superframe_eq, sfApplied]

/-- Settles O38: no stage but `applyRs` writes RS_CORR or RS_UNCORR and none but the report SF_COUNT, whatever the header
decides; the error is the last one raised (assumption 5), after the record the state had. -/
theorem pipelineCountsRsResults : Obligations.PipelineCountsRsResults := by
  intro p s
  refine ⟨?corrected, ?uncorrectable, fun hunc => ?error, ?counted⟩
  case error =>
    rw [superframe_raised, rsErrors, if_pos hunc]
    exact List.mem_append_right _ (List.mem_singleton_self _)
  all_goals rw [superframe_counters, sfApplied_counters]

end Sys2Proof.Machine

/-! SUPPORT. The field GF(256) of R190: multiplication is bilinear over exclusive-or, so that commutativity needs only
the single-bit bytes; associativity follows along the multiplication loop. -/

namespace Sys2Proof.Machine

theorem xor_left_comm (a b c : Byte) : a ^^^ (b ^^^ c) = b ^^^ (a ^^^ c) := by ac_rfl

theorem xtime_eq (a : Byte) : xtime a = a <<< 1 ^^^ (if a.msb then 0x1D else 0) := by
  have hall : ∀ b : Byte, xtime b = b <<< 1 ^^^ (if b.msb then 0x1D else 0) := by decide +kernel
  exact hall a

@[simp] theorem xtime_xor (a b : Byte) : xtime (a ^^^ b) = xtime a ^^^ xtime b := by
  rw [xtime_eq, xtime_eq, xtime_eq, BitVec.shiftLeft_xor_distrib, BitVec.msb_xor]
  cases a.msb <;> cases b.msb <;> simp [BitVec.xor_assoc, BitVec.xor_comm, xor_left_comm]

theorem gmulLoop_xor_left (n : Nat) (a a' b r r' : Byte) :
    gmulLoop n (a ^^^ a') b (r ^^^ r') = gmulLoop n a b r ^^^ gmulLoop n a' b r' := by
  induction n generalizing a a' b r r' with
  | zero => rfl
  | succ n ih =>
    simp only [gmulLoop, xtime_xor]
    rw [← ih]
    cases b.getLsbD 0 <;> simp [BitVec.xor_assoc, BitVec.xor_comm, xor_left_comm]

theorem gmulLoop_xor_right (n : Nat) (a b b' r r' : Byte) :
    gmulLoop n a (b ^^^ b') (r ^^^ r') = gmulLoop n a b r ^^^ gmulLoop n a b' r' := by
  induction n generalizing a b b' r r' with
  | zero => rfl
  | succ n ih =>
    simp only [gmulLoop, BitVec.ushiftRight_xor_distrib, BitVec.getLsbD_xor]
    rw [← ih]
    cases b.getLsbD 0 <;> cases b'.getLsbD 0 <;> simp [BitVec.xor_assoc, BitVec.xor_comm, xor_left_comm]

theorem gmul_xor_left (a a' b : Byte) : gmul (a ^^^ a') b = gmul a b ^^^ gmul a' b :=
  gmulLoop_xor_left 8 a a' b 0 0

theorem gmul_xor_right (a b b' : Byte) : gmul a (b ^^^ b') = gmul a b ^^^ gmul a b' :=
  gmulLoop_xor_right 8 a b b' 0 0

/-- The exclusive-or of the single-bit bytes of `bits` that are set in `a`. -/
def xorBits (a : Byte) (bits : List Nat) : Byte :=
  bits.foldr (fun i acc => (if a.getLsbD i then BitVec.twoPow 8 i else 0) ^^^ acc) 0

theorem xorBits_range (a : Byte) : xorBits a (List.range 8) = a := by
  have hall : ∀ b : Byte, xorBits b (List.range 8) = b := by decide +kernel
  exact hall a

/-- Two linear functions of a byte that agree on the single-bit bytes are equal. -/
theorem eq_of_xor_hom {f g : Byte → Byte} (hf : ∀ a b, f (a ^^^ b) = f a ^^^ f b) (hg : ∀ a b, g (a ^^^ b) = g a ^^^ g b)
    (hbits : ∀ i : Fin 8, f (BitVec.twoPow 8 i.val) = g (BitVec.twoPow 8 i.val)) (a : Byte) : f a = g a := by
  have hf0 : f 0 = 0 := by simpa using hf 0 0
  have hg0 : g 0 = 0 := by simpa using hg 0 0
  have hxor (bits : List Nat) (hlt : ∀ i ∈ bits, i < 8) : f (xorBits a bits) = g (xorBits a bits) := by
    induction bits with
    | nil => exact hf0.trans hg0.symm
    | cons i bits ih =>
      obtain ⟨hi, hrest⟩ := List.forall_mem_cons.1 hlt
      change f (_ ^^^ xorBits a bits) = g (_ ^^^ xorBits a bits)
      rw [hf, hg, ih hrest]
      split
      · rw [hbits ⟨i, hi⟩]
      · rw [hf0, hg0]
  simpa only [xorBits_range] using hxor (List.range 8) (by simp)

theorem gmul_comm (a b : Byte) : gmul a b = gmul b a := by
  have hbits : ∀ i j : Fin 8, gmul (BitVec.twoPow 8 i.val) (BitVec.twoPow 8 j.val) =
      gmul (BitVec.twoPow 8 j.val) (BitVec.twoPow 8 i.val) := by decide +kernel
  refine eq_of_xor_hom (f := (gmul · b)) (g := gmul b) (gmul_xor_left · · b) (gmul_xor_right b) (fun i => ?_) a
  exact eq_of_xor_hom (g := (gmul · (BitVec.twoPow 8 i.val))) (gmul_xor_right _) (gmul_xor_left · · _) (hbits i) b

theorem gmulLoop_xtime (n : Nat) (a b r : Byte) : gmulLoop n (xtime a) b (xtime r) = xtime (gmulLoop n a b r) := by
  induction n generalizing a b r with
  | zero => rfl
  | succ n ih =>
    simp only [gmulLoop]
    rw [← ih]
    split <;> simp

theorem gmul_xtime_right (a b : Byte) : gmul a (xtime b) = xtime (gmul a b) := by
  rw [gmul_comm, gmul_comm a b]
  exact gmulLoop_xtime 8 b a 0

theorem gmulLoop_gmul (n : Nat) (a b c r : Byte) : gmulLoop n (gmul a b) c (gmul a r) = gmul a (gmulLoop n b c r) := by
  induction n generalizing b c r with
  | zero => rfl
  | succ n ih =>
    simp only [gmulLoop]
    rw [← ih, gmul_xtime_right]
    split <;> simp [gmul_xor_right]

@[simp] theorem gmul_zero (a : Byte) : gmul a 0#8 = 0#8 := by simpa using gmul_xor_right a 0 0

@[simp] theorem zero_gmul (a : Byte) : gmul 0#8 a = 0#8 := by rw [gmul_comm, gmul_zero]

theorem gmul_assoc (a b c : Byte) : gmul (gmul a b) c = gmul a (gmul b c) := by
  have hloop : gmulLoop 8 (gmul a b) c (gmul a 0#8) = gmul a (gmulLoop 8 b c 0) := gmulLoop_gmul 8 a b c 0
  rwa [gmul_zero] at hloop

@[simp] theorem one_gmul (a : Byte) : gmul 1#8 a = a := by
  have hall : ∀ b : Byte, gmul 1 b = b := by decide +kernel
  exact hall a

theorem gmul_ginv {a : Byte} (h : a ≠ 0) : gmul a (ginv a) = 1 := by
  have hall : ∀ b : Byte, b ≠ 0 → gmul b (ginv b) = 1 := by decide +kernel
  exact hall a h

/-- The bytes as the elements of GF(256) (R190). -/
structure Gf where
  /-- The byte. -/
  byte : Byte

/-- GF(256): addition is exclusive-or, multiplication is `gmul` (R190). -/
abbrev gfField : Field Gf :=
  letI : Add Gf := ⟨fun a b => ⟨a.byte ^^^ b.byte⟩⟩
  letI : Mul Gf := ⟨fun a b => ⟨gmul a.byte b.byte⟩⟩
  letI : Neg Gf := ⟨id⟩
  letI : Inv Gf := ⟨fun a => ⟨ginv a.byte⟩⟩
  letI : Zero Gf := ⟨⟨0⟩⟩
  letI : One Gf := ⟨⟨1⟩⟩
  Field.ofMinimalAxioms Gf
    (fun _ _ _ => congrArg Gf.mk (BitVec.xor_assoc ..))
    (fun _ => congrArg Gf.mk BitVec.zero_xor)
    (fun _ => congrArg Gf.mk BitVec.xor_self)
    (fun _ _ _ => congrArg Gf.mk (gmul_assoc ..))
    (fun _ _ => congrArg Gf.mk (gmul_comm ..))
    (fun _ => congrArg Gf.mk (one_gmul _))
    (fun _ h => congrArg Gf.mk (gmul_ginv fun h0 => h (congrArg Gf.mk h0)))
    (congrArg Gf.mk (by decide +kernel))
    (fun _ _ _ => congrArg Gf.mk (gmul_xor_right ..))
    ⟨⟨0⟩, ⟨1⟩, fun h => absurd (congrArg Gf.byte h) (by decide)⟩

/-- A field in which the bytes, under exclusive-or and `gmul`, sit. The decoder's algebra is proved in any such field, so
that sums and powers are Mathlib's; `Gf` is one (`gfEmbeds_mk`). -/
structure GfEmbeds {F : Type} [Field F] (φ : Byte → F) : Prop where
  /-- Different bytes are different elements. -/
  injective : Function.Injective φ
  /-- Exclusive-or is addition. -/
  map_xor : ∀ a b, φ (a ^^^ b) = φ a + φ b
  /-- `gmul` is multiplication. -/
  map_gmul : ∀ a b, φ (gmul a b) = φ a * φ b
  /-- The byte 1 is the unit. -/
  map_one : φ 1 = 1

theorem gfEmbeds_mk : @GfEmbeds Gf gfField Gf.mk :=
  @GfEmbeds.mk Gf gfField Gf.mk (fun _ _ h => congrArg Gf.byte h) (fun _ _ => rfl) (fun _ _ => rfl) rfl

end Sys2Proof.Machine

/-! SUPPORT. The polynomials of the decoder over GF(256) (R191, R195): the product of the linear factors of some positions,
power sums of errors and the syndromes as such, how a combination of power sums singles out one error, and the number of
roots of a polynomial. -/

namespace Sys2Proof.Machine

theorem gmul_eq_zero {a b : Byte} : gmul a b = 0 ↔ a = 0 ∨ b = 0 := by
  constructor
  · intro h
    by_cases ha : a = 0
    · exact .inl ha
    · right
      calc b = gmul (gmul a (ginv a)) b := by simp [gmul_ginv ha]
        _ = gmul (ginv a) (gmul a b) := by rw [gmul_comm a, gmul_assoc]
        _ = 0 := by simp [h]
  · rintro (rfl | rfl)
    · exact zero_gmul b
    · exact gmul_zero a

theorem gmul_gmul_ginv (a : Byte) {b : Byte} (h : b ≠ 0) : gmul (gmul a b) (ginv b) = a := by
  rw [gmul_assoc, gmul_ginv h, gmul_comm]
  exact one_gmul a

/-- The powers `α^0` to `α^119` are distinct: each position has its own locator (R190, R197). -/
theorem positionLocator_inj {k m : Nat} (hk : k < 120) (hm : m < 120) (h : positionLocator k = positionLocator m) :
    k = m := by
  have hnodup : ((List.range 120).map positionLocator).Nodup := by decide +kernel
  exact List.inj_on_of_nodup_map hnodup (List.mem_range.2 hk) (List.mem_range.2 hm) h

/-! Products of linear factors. -/

theorem evalLow_zipWith_xor (u v : List Byte) (x : Byte) (h : u.length = v.length) :
    evalLow (List.zipWith (· ^^^ ·) u v) x = evalLow u x ^^^ evalLow v x := by
  induction u generalizing v with
  | nil =>
    obtain rfl := List.eq_nil_of_length_eq_zero h.symm
    simp [evalLow]
  | cons a u ih =>
    cases v with
    | nil => cases h
    | cons b v =>
      simp only [List.zipWith_cons_cons, evalLow]
      rw [ih v (Nat.succ.inj h), gmul_xor_right]
      ac_rfl

theorem evalLow_map_gmul (a : Byte) (p : List Byte) (x : Byte) : evalLow (p.map (gmul a)) x = gmul a (evalLow p x) := by
  induction p with
  | nil => simp [evalLow]
  | cons c p ih =>
    simp only [List.map_cons, evalLow]
    rw [ih, gmul_xor_right, ← gmul_assoc, ← gmul_assoc, gmul_comm x]

theorem evalLow_append_zero (p : List Byte) (x : Byte) : evalLow (p ++ [0]) x = evalLow p x := by
  induction p with
  | nil => simp [evalLow]
  | cons c p ih => simp only [List.cons_append, evalLow, ih]

@[simp] theorem mulLinear_length (a : Byte) (p : List Byte) : (mulLinear a p).length = p.length + 1 := by simp [mulLinear]

theorem evalLow_mulLinear (a : Byte) (p : List Byte) (x : Byte) :
    evalLow (mulLinear a p) x = gmul (x ^^^ a) (evalLow p x) := by
  rw [mulLinear, evalLow_zipWith_xor _ _ _ (by simp), evalLow_append_zero, evalLow_map_gmul, gmul_xor_left]
  simp [evalLow, BitVec.xor_comm]

/-- The product of `x + X_m` over some positions, as `errorValue` builds it. -/
def locatorProduct (positions : List Nat) : List Byte :=
  positions.foldr (fun m p => mulLinear (positionLocator m) p) [1]

/-- The given positions without position `k`. -/
def otherPositions (positions : List Nat) (k : Nat) : List Nat := positions.filter (· != k)

theorem mem_otherPositions {positions : List Nat} {k m : Nat} :
    m ∈ otherPositions positions k ↔ m ∈ positions ∧ m ≠ k := by simp [otherPositions]

theorem length_otherPositions_lt {positions : List Nat} {k : Nat} (h : k ∈ positions) :
    (otherPositions positions k).length < positions.length :=
  List.length_filter_lt_length_iff_exists.2 ⟨k, h, by simp⟩

theorem errorValue_eq (synd : List Byte) (positions : List Nat) (k : Nat) :
    errorValue synd positions k = gmul (dot (locatorProduct (otherPositions positions k)) synd)
      (ginv (evalLow (locatorProduct (otherPositions positions k)) (positionLocator k))) := by
  simp [errorValue, firstFactor_eq, locatorProduct, otherPositions]

@[simp] theorem locatorProduct_length (positions : List Nat) :
    (locatorProduct positions).length = positions.length + 1 := by
  induction positions with
  | nil => rfl
  | cons m positions ih => simpa [locatorProduct] using ih

theorem evalLow_locatorProduct_eq_zero {positions : List Nat} {x : Byte} :
    evalLow (locatorProduct positions) x = 0 ↔ ∃ m ∈ positions, x = positionLocator m := by
  induction positions with
  | nil => simp [locatorProduct, evalLow]
  | cons m positions ih =>
    change evalLow (mulLinear _ (locatorProduct positions)) x = 0 ↔ _
    rw [evalLow_mulLinear, gmul_eq_zero, ih]
    simp

/-- The product over the other positions is not 0 at the locator of position `k`. -/
theorem evalLow_otherPositions_ne_zero {positions : List Nat} (hlt : ∀ m ∈ positions, m < 120) {k : Nat} (hk : k < 120) :
    evalLow (locatorProduct (otherPositions positions k)) (positionLocator k) ≠ 0 := by
  intro h
  obtain ⟨m, hm, heq⟩ := evalLow_locatorProduct_eq_zero.1 h
  obtain ⟨hmem, hne⟩ := mem_otherPositions.1 hm
  exact hne (positionLocator_inj hk (hlt m hmem) heq).symm

theorem dot_replicate_zero (p : List Byte) (n : Nat) : dot p (List.replicate n 0#8) = 0#8 := by
  induction p generalizing n with
  | nil => rfl
  | cons a p ih =>
    cases n with
    | zero => rfl
    | succ n => simp [List.replicate_succ, dot, ih n]

/-! Power sums, in a field that the bytes sit in. -/

/-- `Σ_k e_k · X_k^i` over the positions of a row: syndrome `i` of the row of bytes `e_k` (R195). -/
def powerSum {F : Type} [Field F] (φ : Byte → F) (e : Nat → Byte) (i : Nat) : F :=
  ∑ k ∈ Finset.range 120, φ (e k) * φ (positionLocator k) ^ i

section
variable {F : Type} [Field F] {φ : Byte → F} (hφ : GfEmbeds φ)
include hφ

theorem GfEmbeds.map_zero : φ 0 = 0 := by simpa using hφ.map_xor 0 0

theorem GfEmbeds.map_eq_zero {a : Byte} : φ a = 0 ↔ a = 0 := by
  rw [← hφ.map_zero, hφ.injective.eq_iff]

theorem GfEmbeds.map_gpow (a : Byte) (n : Nat) : φ (gpow a n) = φ a ^ n := by
  induction n with
  | zero => rw [gpow, hφ.map_one, pow_zero]
  | succ n ih => rw [gpow, hφ.map_gmul, ih, pow_succ]

theorem powerSum_xor (e e' : Nat → Byte) (i : Nat) :
    powerSum φ (fun k => e k ^^^ e' k) i = powerSum φ e i + powerSum φ e' i := by
  simp only [powerSum, hφ.map_xor, add_mul, Finset.sum_add_distrib]

/-- Horner's rule as a sum. -/
theorem map_horner (x acc : Byte) (coeffs : List Byte) : φ (horner x acc coeffs) =
    φ acc * φ x ^ coeffs.length +
      ∑ k ∈ Finset.range coeffs.length, φ (byteAt coeffs k) * φ x ^ (coeffs.length - 1 - k) := by
  induction coeffs generalizing acc with
  | nil => simp
  | cons c coeffs ih =>
    have hexp (k : Nat) : coeffs.length - 1 - k = coeffs.length - (k + 1) := by omega
    simp only [horner_cons, ih, hφ.map_xor, hφ.map_gmul, List.length_cons, Finset.sum_range_succ', byteAt_cons_succ,
      byteAt_cons_zero, hexp, Nat.add_sub_cancel, Nat.sub_zero]
    ring

/-- The syndromes of a row are the power sums of its bytes (R195). -/
theorem map_syndromes {row : List Byte} (hl : row.length = 120) {i : Nat} (hi : i < 10) :
    φ (byteAt (syndromes row) i) = powerSum φ (byteAt row) i := by
  have hi' : i < (syndromes row).length := by simpa using hi
  rw [byteAt_eq_getElem _ _ hi', syndromes_getElem row hl, evalHigh, map_horner hφ, hφ.map_zero, zero_mul, zero_add, hl]
  refine Finset.sum_congr rfl fun k _ => ?_
  rw [positionLocator_eq, hφ.map_gpow, hφ.map_gpow, pow_right_comm]

theorem powerSum_codeword {c : List Byte} (hl : c.length = 120) (hc : isCodeword c = true) {i : Nat} (hi : i < 10) :
    powerSum φ (byteAt c) i = 0 := by
  have hi' : i < (syndromes c).length := by simpa using hi
  rw [← map_syndromes hφ hl hi, byteAt_eq_getElem _ _ hi', syndromes_getElem c hl, (isCodeword_iff c hl).1 hc i hi,
    hφ.map_zero]

/-- A combination of successive power sums weights each error with the combination's value at its locator. -/
theorem map_dot (p l : List Byte) (e : Nat → Byte) (i : Nat) (hlen : p.length ≤ l.length)
    (hl : ∀ j < l.length, φ (byteAt l j) = powerSum φ e (i + j)) :
    φ (dot p l) = powerSum φ (fun k => gmul (e k) (evalLow p (positionLocator k))) i := by
  induction p generalizing l i with
  | nil =>
    have hzero : φ 0#8 = 0 := hφ.map_zero
    simp [dot, evalLow, powerSum, hzero]
  | cons a p ih =>
    cases l with
    | nil => cases hlen
    | cons s l =>
      have hs : φ s = powerSum φ e i := hl 0 (Nat.succ_pos _)
      have htail : φ (dot p l) = _ := ih l (i + 1) (Nat.le_of_succ_le_succ hlen) fun j hj => by
        rw [Nat.add_assoc, Nat.add_comm 1, ← hl (j + 1) (Nat.succ_lt_succ hj), byteAt_cons_succ]
      rw [dot, hφ.map_xor, hφ.map_gmul, hs, htail]
      simp only [powerSum, evalLow, hφ.map_gmul, hφ.map_xor, Finset.mul_sum, ← Finset.sum_add_distrib]
      exact Finset.sum_congr rfl fun k _ => by ring

/-- The product over the other positions singles out the error at position `k`. -/
theorem dot_otherPositions {positions : List Nat} {l : List Byte} {e : Nat → Byte} {k : Nat} (hk : k < 120)
    (hsupport : ∀ m < 120, e m ≠ 0 → m ∈ positions) (hlen : (otherPositions positions k).length < l.length)
    (hl : ∀ i < l.length, φ (byteAt l i) = powerSum φ e i) :
    dot (locatorProduct (otherPositions positions k)) l =
      gmul (e k) (evalLow (locatorProduct (otherPositions positions k)) (positionLocator k)) := by
  apply hφ.injective
  have hdot := map_dot hφ (locatorProduct (otherPositions positions k)) l e 0 (by simpa using hlen) (by simpa using hl)
  simp only [powerSum, pow_zero, mul_one] at hdot
  rw [hdot]
  refine Finset.sum_eq_single_of_mem k (Finset.mem_range.2 hk) fun m hm hmk => ?_
  rw [hφ.map_eq_zero, gmul_eq_zero]
  by_cases hem : e m = 0
  · exact .inl hem
  · have hother := mem_otherPositions.2 ⟨hsupport m (Finset.mem_range.1 hm) hem, hmk⟩
    exact .inr (evalLow_locatorProduct_eq_zero.2 ⟨m, hother, rfl⟩)

/-- At most `n` errors whose first `n` power sums are 0 are no errors. -/
theorem eq_zero_of_powerSum_eq_zero {positions : List Nat} {e : Nat → Byte} {n : Nat} (hlen : positions.length ≤ n)
    (hlt : ∀ m ∈ positions, m < 120) (hsupport : ∀ m < 120, e m ≠ 0 → m ∈ positions)
    (hzero : ∀ i < n, powerSum φ e i = 0) {k : Nat} (hk : k < 120) : e k = 0 := by
  by_contra hek
  have hshort := length_otherPositions_lt (hsupport k hk hek)
  have hl (i : Nat) (hi : i < (List.replicate n 0#8).length) : φ (byteAt (List.replicate n 0#8) i) = powerSum φ e i := by
    rw [byteAt_eq_getElem _ _ hi, List.getElem_replicate, hzero i (by simpa using hi)]
    exact hφ.map_zero
  have hdot := dot_otherPositions hφ hk hsupport (by rw [List.length_replicate]; omega) hl
  have hprod := gmul_eq_zero.1 (hdot.symm.trans (dot_replicate_zero _ n))
  exact evalLow_otherPositions_ne_zero hlt hk (hprod.resolve_left hek)

/-- `errorValue` finds the errors when they lie in at most 10 given positions. -/
theorem errorValue_of_powerSum {synd : List Byte} {positions : List Nat} {e : Nat → Byte} (hsynd : synd.length = 10)
    (hlen : positions.length ≤ 10) (hlt : ∀ m ∈ positions, m < 120) (hsupport : ∀ m < 120, e m ≠ 0 → m ∈ positions)
    (hsum : ∀ i < 10, φ (byteAt synd i) = powerSum φ e i) {k : Nat} (hk : k ∈ positions) :
    errorValue synd positions k = e k := by
  have hshort := length_otherPositions_lt hk
  rw [errorValue_eq, dot_otherPositions hφ (hlt k hk) hsupport (by omega) (by simpa only [hsynd] using hsum)]
  exact gmul_gmul_ginv _ (evalLow_otherPositions_ne_zero hlt (hlt k hk))

theorem map_evalLow (p : List Byte) (x : Byte) :
    φ (evalLow p x) = ∑ i : Fin p.length, φ p[i] * φ x ^ i.val := by
  induction p with
  | nil => simpa [evalLow] using hφ.map_zero
  | cons c p ih =>
    rw [evalLow, hφ.map_xor, hφ.map_gmul, ih]
    simp only [List.length_cons, Fin.sum_univ_succ, Finset.mul_sum]
    simp [pow_succ', mul_left_comm]

/-- A polynomial with a coefficient other than 0 has fewer roots than coefficients. -/
theorem length_rootPositions_lt {p : List Byte} (hp : ∃ c ∈ p, c ≠ 0) : (rootPositions p).length < p.length := by
  by_contra hle
  have hidx (i : Fin p.length) : i.val < (rootPositions p).length := by omega
  have hmem (i : Fin p.length) := List.getElem_mem (hidx i)
  simp only [rootPositions, List.mem_filter, List.mem_range, beq_iff_eq] at hmem
  have hnodup : (rootPositions p).Nodup := List.nodup_range.filter _
  have hinj : Function.Injective fun i : Fin p.length => φ (positionLocator ((rootPositions p)[i.val]'(hidx i))) := by
    intro i j h
    have hpos := positionLocator_inj (hmem i).1 (hmem j).1 (hφ.injective h)
    exact Fin.ext ((hnodup.getElem_inj_iff).1 hpos)
  have hzero := Matrix.eq_zero_of_forall_index_sum_mul_pow_eq_zero (v := fun i : Fin p.length => φ p[i]) hinj fun j => by
    rw [← map_evalLow hφ, hφ.map_eq_zero]
    exact (hmem j).2
  obtain ⟨c, hc, hne⟩ := hp
  obtain ⟨i, hi, rfl⟩ := List.getElem_of_mem hc
  exact hne (hφ.map_eq_zero.1 (congrFun hzero ⟨i, hi⟩))

end

end Sys2Proof.Machine

/-! SUPPORT. The locator of the decoder (R196, R197): sifting keeps all but one of the polynomials, their degrees rise, and
so one that is not 0 satisfies the five key equations. -/

namespace Sys2Proof.Machine

theorem addMul_length {w v : List Byte} (c : Byte) (h : w.length = v.length) : (addMul w c v).length = w.length := by
  simp [addMul, h]

theorem byteAt_addMul {w v : List Byte} (c : Byte) (h : w.length = v.length) (j : Nat) :
    byteAt (addMul w c v) j = byteAt w j ^^^ gmul c (byteAt v j) := by
  by_cases hj : j < w.length
  · have hv : j < v.length := h ▸ hj
    have ha : j < (addMul w c v).length := by rwa [addMul_length c h]
    rw [byteAt_eq_getElem _ _ hj, byteAt_eq_getElem _ _ hv, byteAt_eq_getElem _ _ ha]
    exact List.getElem_zipWith
  · have hout (l : List Byte) (hl : l.length = w.length) : byteAt l j = 0#8 :=
      List.getD_eq_default _ _ (by omega)
    rw [hout _ (addMul_length c h), hout w rfl, hout v h.symm, gmul_zero, BitVec.xor_self]

theorem dot_addMul {w v : List Byte} (c : Byte) (l : List Byte) (h : w.length = v.length) :
    dot (addMul w c v) l = dot w l ^^^ gmul c (dot v l) := by
  induction w generalizing v l with
  | nil =>
    obtain rfl := List.eq_nil_of_length_eq_zero h.symm
    simp [addMul, dot]
  | cons a w ih =>
    cases v with
    | nil => cases h
    | cons b v =>
      cases l with
      | nil => simp [addMul, dot]
      | cons s l =>
        change gmul (a ^^^ gmul c b) s ^^^ dot (addMul w c v) l = (gmul a s ^^^ dot w l) ^^^ gmul c (gmul b s ^^^ dot v l)
        rw [ih l (Nat.succ.inj h), gmul_xor_left, gmul_xor_right, gmul_assoc]
        ac_rfl

theorem keyValue_addMul (synd : List Byte) (i : Nat) {w v : List Byte} (c : Byte) (h : w.length = v.length) :
    keyValue synd i (addMul w c v) = keyValue synd i w ^^^ gmul c (keyValue synd i v) :=
  dot_addMul c _ h

/-- A sifted polynomial is one that satisfies the equation, or one corrected by one that fails it. -/
theorem mem_sift {φ : List Byte → Byte} {polys : List (List Byte)} {u : List Byte} (h : u ∈ sift φ polys) :
    (u ∈ polys ∧ φ u = 0) ∨ ∃ v ∈ polys, ∃ w ∈ polys, φ v ≠ 0 ∧ u = addMul w (gmul (φ w) (ginv (φ v))) v := by
  induction polys with
  | nil => cases h
  | cons v rest ih =>
    rw [sift] at h
    split at h
    next hv =>
      rcases List.mem_cons.1 h with rfl | hu
      · exact .inl ⟨List.mem_cons_self, hv⟩
      · rcases ih hu with ⟨hmem, hzero⟩ | ⟨v', hv', w, hw, hne, heq⟩
        · exact .inl ⟨List.mem_cons_of_mem _ hmem, hzero⟩
        · exact .inr ⟨v', List.mem_cons_of_mem _ hv', w, List.mem_cons_of_mem _ hw, hne, heq⟩
    next hv =>
      obtain ⟨w, hw, rfl⟩ := List.mem_map.1 h
      exact .inr ⟨v, List.mem_cons_self, w, List.mem_cons_of_mem _ hw, hv, rfl⟩

theorem length_le_length_sift (φ : List Byte → Byte) (polys : List (List Byte)) :
    polys.length ≤ (sift φ polys).length + 1 := by
  induction polys with
  | nil => simp
  | cons v rest ih =>
    rw [sift]
    split
    · simpa using ih
    · simp

/-- A monic polynomial of degree `d`, lowest degree first. -/
def HasDegree (v : List Byte) (d : Nat) : Prop := byteAt v d = 1#8 ∧ ∀ j, d < j → byteAt v j = 0#8

/-- Monic polynomials of rising degree, the first at least `b`. -/
def Rising : Nat → List (List Byte) → Prop
  | _, [] => True
  | b, v :: rest => ∃ d, b ≤ d ∧ HasDegree v d ∧ Rising (d + 1) rest

theorem Rising.mono {b b' : Nat} {polys : List (List Byte)} (h : Rising b polys) (hle : b' ≤ b) : Rising b' polys := by
  cases polys with
  | nil => trivial
  | cons v rest =>
    obtain ⟨d, hd, hrest⟩ := h
    exact ⟨d, hle.trans hd, hrest⟩

/-- Correcting by a polynomial of lower degree changes no degree and no leading coefficient. -/
theorem HasDegree.addMul {v w : List Byte} {d e : Nat} (hw : HasDegree w e) (hv : HasDegree v d) (hlt : d < e) (c : Byte)
    (hlen : w.length = v.length) : HasDegree (addMul w c v) e := by
  obtain ⟨hlead, habove⟩ := hw
  have hsame (j : Nat) (hj : e ≤ j) : byteAt (Machine.addMul w c v) j = byteAt w j := by
    rw [byteAt_addMul c hlen, hv.2 j (by omega), gmul_zero, BitVec.xor_zero]
  exact ⟨(hsame e le_rfl).trans hlead, fun j hj => (hsame j hj.le).trans (habove j hj)⟩

theorem Rising.map_addMul {v : List Byte} {d b : Nat} (hv : HasDegree v d) (c : List Byte → Byte)
    {polys : List (List Byte)} (h : Rising b polys) (hlt : d < b) (hlen : ∀ w ∈ polys, w.length = v.length) :
    Rising b (polys.map fun w => addMul w (c w) v) := by
  induction polys generalizing b with
  | nil => trivial
  | cons w rest ih =>
    obtain ⟨e, he, hw, hrest⟩ := h
    obtain ⟨hwlen, hrestlen⟩ := List.forall_mem_cons.1 hlen
    exact ⟨e, he, hw.addMul hv (by omega) _ hwlen, ih hrest (by omega) hrestlen⟩

theorem Rising.sift {n b : Nat} {polys : List (List Byte)} (φ : List Byte → Byte) (h : Rising b polys)
    (hlen : ∀ v ∈ polys, v.length = n) : Rising b (sift φ polys) := by
  induction polys generalizing b with
  | nil => trivial
  | cons v rest ih =>
    obtain ⟨d, hd, hv, hrest⟩ := h
    obtain ⟨hvlen, hrestlen⟩ := List.forall_mem_cons.1 hlen
    rw [Machine.sift]
    split
    · exact ⟨d, hd, hv, ih hrest hrestlen⟩
    · have hmap := hrest.map_addMul hv (fun w => gmul (φ w) (ginv (φ v))) (Nat.lt_succ_self d)
        fun w hw => (hrestlen w hw).trans hvlen.symm
      exact hmap.mono (by omega)

theorem rising_map_range' {f : Nat → List Byte} {b n : Nat} (h : ∀ d < b + n, HasDegree (f d) d) :
    Rising b ((List.range' b n).map f) := by
  induction n generalizing b with
  | zero => trivial
  | succ n ih => exact ⟨b, le_rfl, h b (by omega), ih fun d hd => h d (by omega)⟩

/-- The monomial `x^d` has degree `d`. -/
theorem hasDegree_monomial {d n : Nat} (h : d < n) :
    HasDegree ((List.range n).map fun j => if j = d then 1 else 0) d := by
  constructor
  · simp [byteAt, h]
  · intro j hj
    by_cases hjn : j < n
    · simp [byteAt, hjn, hj.ne']
    · simp [byteAt, hjn]

/-- What holds of the polynomials after the key equations below `n`: 6 coefficients each, rising degrees, at most one
polynomial dropped per equation, and every one satisfies the equations so far. -/
structure Sifted (synd : List Byte) (n : Nat) (polys : List (List Byte)) : Prop where
  length_eq : ∀ v ∈ polys, v.length = 6
  rising : Rising 0 polys
  count : 6 ≤ polys.length + n
  keyValue_eq : ∀ v ∈ polys, ∀ i < n, keyValue synd i v = 0#8

theorem sifted_monomials (synd : List Byte) : Sifted synd 0 monomials where
  length_eq := by decide
  rising := by
    rw [monomials, List.range_eq_range']
    exact rising_map_range' fun d hd => hasDegree_monomial (by simpa using hd)
  count := by decide
  keyValue_eq _ _ i hi := absurd hi (Nat.not_lt_zero i)

theorem Sifted.sift {synd : List Byte} {n : Nat} {polys : List (List Byte)} (h : Sifted synd n polys) :
    Sifted synd (n + 1) (sift (keyValue synd n) polys) where
  length_eq u hu := by
    rcases mem_sift hu with ⟨hmem, -⟩ | ⟨v, hv, w, hw, -, rfl⟩
    · exact h.length_eq u hmem
    · rw [addMul_length _ ((h.length_eq w hw).trans (h.length_eq v hv).symm), h.length_eq w hw]
  rising := h.rising.sift _ h.length_eq
  count := by
    have hdrop := length_le_length_sift (keyValue synd n) polys
    have hcount := h.count
    omega
  keyValue_eq u hu i hi := by
    rcases mem_sift hu with ⟨hmem, hn⟩ | ⟨v, hv, w, hw, hne, rfl⟩
    · rcases Nat.lt_succ_iff_lt_or_eq.1 hi with hlt | rfl
      · exact h.keyValue_eq u hmem i hlt
      · exact hn
    · rw [keyValue_addMul _ _ _ ((h.length_eq w hw).trans (h.length_eq v hv).symm)]
      rcases Nat.lt_succ_iff_lt_or_eq.1 hi with hlt | rfl
      · rw [h.keyValue_eq v hv i hlt, h.keyValue_eq w hw i hlt, gmul_zero, BitVec.xor_self]
      · rw [gmul_assoc, gmul_comm (ginv _), gmul_ginv hne, gmul_comm]
        simp

theorem sifted_foldl (synd : List Byte) (n : Nat) :
    Sifted synd n ((List.range n).foldl (fun polys i => sift (keyValue synd i) polys) monomials) := by
  induction n with
  | zero => exact sifted_monomials synd
  | succ n ih =>
    rw [List.range_succ, List.foldl_append]
    exact ih.sift

/-- The locator has 6 coefficients, not all 0, and satisfies the key equations 0 to 4. -/
theorem locator_spec (synd : List Byte) : (locator synd).length = 6 ∧ (∃ c ∈ locator synd, c ≠ 0) ∧
    ∀ i < 5, keyValue synd i (locator synd) = 0 := by
  have hsifted := sifted_foldl synd 5
  obtain ⟨v, rest, hpolys⟩ : ∃ v rest, (List.range 5).foldl (fun polys i => sift (keyValue synd i) polys) monomials =
      v :: rest := List.exists_cons_of_length_pos (by have hcount := hsifted.count; omega)
  have hloc : locator synd = v := by
    rw [locator, show Tables.rsCapacity = 5 from rfl, hpolys]
    rfl
  rw [hpolys] at hsifted
  rw [hloc]
  obtain ⟨d, -, ⟨hlead, -⟩, -⟩ := hsifted.rising
  have hd : d < v.length := by
    by_contra hd
    rw [byteAt, List.getD_eq_default _ _ (by omega)] at hlead
    exact absurd hlead (by decide)
  rw [byteAt_eq_getElem _ _ hd] at hlead
  exact ⟨hsifted.length_eq v List.mem_cons_self, ⟨v[d], List.getElem_mem hd, by rw [hlead]; decide⟩,
    hsifted.keyValue_eq v List.mem_cons_self⟩

end Sys2Proof.Machine

/-! SUPPORT. The rows of DecodeRow (R196): the errors between a row and a codeword, that the locator's roots hold their
positions and the corrected row is the codeword, and the statement. -/

namespace Sys2Proof.Machine

/-- The error at position `k` of a row received for the codeword `c`. -/
def errorAt (r c : List Byte) (k : Nat) : Byte := byteAt r k ^^^ byteAt c k

theorem errorAt_eq_zero {r c : List Byte} {k : Nat} : errorAt r c k = 0 ↔ byteAt r k = byteAt c k :=
  BitVec.xor_eq_zero_iff

/-- The positions at which two rows differ. -/
def errorPositions (r c : List Byte) : List Nat := (List.range 120).filter fun k => byteAt c k != byteAt r k

theorem mem_errorPositions {r c : List Byte} {k : Nat} : k ∈ errorPositions r c ↔ k < 120 ∧ byteAt c k ≠ byteAt r k := by
  simp [errorPositions]

theorem mem_errorPositions_of_errorAt {r c : List Byte} {k : Nat} (hk : k < 120) (he : errorAt r c k ≠ 0) :
    k ∈ errorPositions r c := mem_errorPositions.2 ⟨hk, fun heq => he (errorAt_eq_zero.2 heq.symm)⟩

/-- The distance is the number of positions in which the rows differ (R196). -/
theorem rowDist_eq_length_filter {a b : List Byte} (h : a.length = b.length) :
    rowDist a b = ((List.range a.length).filter fun k => byteAt a k != byteAt b k).length := by
  induction a generalizing b with
  | nil => simp [rowDist]
  | cons x a ih =>
    cases b with
    | nil => cases h
    | cons y b =>
      have htail := ih (Nat.succ.inj h)
      rw [List.length_cons, List.range_succ_eq_map, List.filter_cons, List.filter_map, byteAt_cons_zero, byteAt_cons_zero]
      simp only [rowDist, List.zipWith_cons_cons, List.sum_cons] at htail ⊢
      rw [htail]
      by_cases hxy : x = y <;> simp [hxy, Function.comp_def, Nat.add_comm]

theorem length_errorPositions {r c : List Byte} (hr : r.length = 120) (hc : c.length = 120) :
    (errorPositions r c).length = rowDist c r := by
  rw [rowDist_eq_length_filter (hc.trans hr.symm), hc, errorPositions]

theorem eq_of_byteAt_eq {a b : List Byte} (h : a.length = b.length) (heq : ∀ k < a.length, byteAt a k = byteAt b k) :
    a = b := by
  refine List.ext_getElem h fun k ha hb => ?_
  rw [← byteAt_eq_getElem a k ha, ← byteAt_eq_getElem b k hb, heq k ha]

theorem rowDist_self (r : List Byte) : rowDist r r = 0 := by simp [rowDist_eq_length_filter]

/-- The bytes of a corrected row. -/
theorem byteAt_correctRow {row synd : List Byte} {positions : List Nat} {k : Nat} (hk : k < row.length) :
    byteAt (correctRow row synd positions) k =
      if k ∈ positions then byteAt row k ^^^ errorValue synd positions k else byteAt row k := by
  rw [byteAt_eq_getElem _ _ (by simpa using hk), byteAt_eq_getElem _ _ hk]
  simp [correctRow]

theorem mem_rootPositions {p : List Byte} {k : Nat} :
    k ∈ rootPositions p ↔ k < 120 ∧ evalLow p (positionLocator k) = 0 := by
  simp [rootPositions, Tables.rsCodeLen]

section
variable {F : Type} [Field F] {φ : Byte → F} (hφ : GfEmbeds φ) {r c : List Byte} (hr : r.length = 120) (hc : c.length = 120)
  (hcode : isCodeword c = true)
include hφ hr hc hcode

/-- The codeword has no part in the syndromes: they are the power sums of the errors (R195). -/
theorem map_syndromes_eq_errors {i : Nat} (hi : i < 10) :
    φ (byteAt (syndromes r) i) = powerSum φ (errorAt r c) i := by
  rw [map_syndromes hφ hr hi]
  change _ = powerSum φ (fun k => byteAt r k ^^^ byteAt c k) i
  rw [powerSum_xor hφ, powerSum_codeword hφ hc hcode hi, add_zero]

/-- Codewords at distance at most 10 are equal (R191). -/
theorem eq_of_codewords_near (hrcode : isCodeword r = true) (hdist : rowDist c r ≤ 10) : r = c := by
  refine eq_of_byteAt_eq (hr.trans hc.symm) fun k hk => ?_
  rw [← length_errorPositions hr hc] at hdist
  refine errorAt_eq_zero.1 (eq_zero_of_powerSum_eq_zero hφ hdist (fun m hm => (mem_errorPositions.1 hm).1)
    (fun m => mem_errorPositions_of_errorAt) (fun i hi => ?_) (hr ▸ hk))
  rw [← map_syndromes_eq_errors hφ hr hc hcode hi, map_syndromes hφ hr hi, powerSum_codeword hφ hr hrcode hi]

/-- A key equation is a power sum of the errors, each weighted with the polynomial's value at its locator (R197). -/
theorem map_keyValue {p : List Byte} {i : Nat} (hlen : p.length + i ≤ 10) : φ (keyValue (syndromes r) i p) =
    powerSum φ (fun k => gmul (errorAt r c k) (evalLow p (positionLocator k))) i := by
  refine map_dot hφ p _ _ i (by simp; omega) fun j hj => ?_
  have hj' : i + j < 10 := by simp at hj; omega
  rw [← map_syndromes_eq_errors hφ hr hc hcode hj', byteAt, byteAt, List.getD_eq_getElem?_getD, List.getElem?_drop,
    List.getD_eq_getElem?_getD]

/-- With at most 5 errors, each lies at a root of the locator. -/
theorem errorPositions_subset_roots (hdist : rowDist c r ≤ 5) {k : Nat} (hk : k < 120) (he : errorAt r c k ≠ 0) :
    k ∈ rootPositions (locator (syndromes r)) := by
  obtain ⟨hlen, -, hkey⟩ := locator_spec (syndromes r)
  rw [← length_errorPositions hr hc] at hdist
  have hweighted : gmul (errorAt r c k) (evalLow (locator (syndromes r)) (positionLocator k)) = 0 :=
    eq_zero_of_powerSum_eq_zero (e := fun m => gmul (errorAt r c m) (evalLow (locator (syndromes r)) (positionLocator m)))
      hφ hdist (fun m hm => (mem_errorPositions.1 hm).1)
      (fun m hm hne => mem_errorPositions_of_errorAt hm fun h0 => hne (gmul_eq_zero.2 (.inl h0)))
      (fun i hi => by rw [← map_keyValue hφ hr hc hcode (by omega), hkey i hi, hφ.map_zero]) hk
  exact mem_rootPositions.2 ⟨hk, (gmul_eq_zero.1 hweighted).resolve_left he⟩

/-- With at most 5 errors, correcting at the roots of the locator gives the codeword. -/
theorem correctRow_eq_codeword (hdist : rowDist c r ≤ 5) :
    correctRow r (syndromes r) (rootPositions (locator (syndromes r))) = c := by
  obtain ⟨hlen, hne, -⟩ := locator_spec (syndromes r)
  have hfew := length_rootPositions_lt hφ hne
  have hsupport (m : Nat) := errorPositions_subset_roots hφ hr hc hcode hdist (k := m)
  refine eq_of_byteAt_eq (by simp [hr, hc]) fun k hk => ?_
  rw [correctRow_length] at hk
  rw [byteAt_correctRow hk]
  split
  next hroot =>
    rw [errorValue_of_powerSum hφ (syndromes_length r) (by omega) (fun m hm => (mem_rootPositions.1 hm).1) hsupport
      (fun i hi => map_syndromes_eq_errors hφ hr hc hcode hi) hroot, errorAt, ← BitVec.xor_assoc, BitVec.xor_self,
      BitVec.zero_xor]
  next hroot =>
    by_contra hdiff
    exact hroot (hsupport k (hr ▸ hk) (mt errorAt_eq_zero.1 hdiff))

end

/-- A codeword within distance 5 is what DecodeRow answers (R196). -/
theorem decodeRow_of_near {r c : List Byte} (hr : r.length = 120) (hc : c.length = 120) (hcode : isCodeword c = true)
    (hdist : rowDist c r ≤ 5) : decodeRow r = ⟨c, rowDist c r, false⟩ := by
  by_cases hrcode : isCodeword r = true
  · obtain rfl := @eq_of_codewords_near Gf gfField Gf.mk gfEmbeds_mk r c hr hc hcode hrcode (by omega)
    rw [rowDist_self]
    exact if_pos hrcode
  · have hfixed := @correctRow_eq_codeword Gf gfField Gf.mk gfEmbeds_mk r c hr hc hcode hdist
    have hsynd : ¬((syndromes r).all (· == 0)) = true := hrcode
    rw [decodeRow, if_neg hsynd]
    dsimp only
    rw [hfixed, hcode, Bool.true_and]
    exact if_pos (decide_eq_true hdist)

/-- Settles O45: a codeword within distance 5 is the answer by `decodeRow_of_near`; without one, the other two answers of
`decodeRow_cases` would be such a codeword. -/
theorem decodeRowIsBoundedDistance : Obligations.DecodeRowIsBoundedDistance := by
  intro r hr
  refine ⟨fun c hc hcode hdist => decodeRow_of_near hr hc hcode hdist, fun hunc c hc hcode => ?_, fun hfar => ?_⟩
  · by_contra hnear
    have hok := decodeRow_of_near hr hc hcode (by omega)
    have hflag : true = false := congrArg RowResult.uncorrectable (hunc.symm.trans hok)
    cases hflag
  · rcases decodeRow_cases r with ⟨hcode, -⟩ | ⟨fixed, -, hcode, hdist, hlen, -⟩ | ⟨-, hanswer⟩
    · have hself := hfar r hr hcode
      rw [rowDist_self] at hself
      omega
    · have hout := hfar fixed (hlen.trans hr) hcode
      omega
    · exact hanswer

end Sys2Proof.Machine

/-! SUPPORT. The PAD of a frame laid out as its bytes and the two F-PAD bytes, whatever its F-PAD says (R105, R106, R230 to
R233), the short X-PAD byte by byte (R107, R235), and the two statements. -/

namespace Sys2Proof.Machine

/-- The bit field of the formats, as the statements write it (R10). -/
theorem bitField_eq_toNat_extractLsb' (v : Byte) (hi lo : Nat) :
    bitField v hi lo = (v.extractLsb' lo (hi + 1 - lo)).toNat := by
  rw [bitField, BitVec.extractLsb'_toNat, Nat.shiftRight_eq_div_pow]

/-- Bits of a field are bits of the byte it was cut from. -/
theorem extractLsb'_extractLsb' (v : Byte) {start len i n : Nat} (h : i + n ≤ len) :
    (v.extractLsb' start len).extractLsb' i n = v.extractLsb' (start + i) n := by
  ext j hj
  have hin : i + j < len := by omega
  simp [hin, Nat.add_assoc]

theorem fpadByte1_laidOut (body : List Byte) (fb1 fb2 : Byte) : Tables.fpadByte1 (body ++ [fb1, fb2]) = fb1 := by
  simpa [Tables.fpadByte1] using byteAt_append_right body [fb1, fb2] 0

theorem fpadByte2_laidOut (body : List Byte) (fb1 fb2 : Byte) : Tables.fpadByte2 (body ++ [fb1, fb2]) = fb2 := by
  simpa [Tables.fpadByte2] using byteAt_append_right body [fb1, fb2] 1

theorem xpad_laidOut (body : List Byte) (fb1 fb2 : Byte) : Tables.xpad (body ++ [fb1, fb2]) = body.reverse := by
  simp [Tables.xpad]

/-- ProcessPAD goes by the F-PAD type, then by the X-PAD indicator (R230 to R233). -/
theorem processPad_laidOut (p : Params) (body : List Byte) (fb1 fb2 : Byte) (s : State) :
    processPad p (body ++ [fb1, fb2]) s =
      if fb1.extractLsb' 6 2 ≠ 0 then s
      else if fb1.extractLsb' 4 2 = 1 then shortXpad body.reverse (fb2.getLsbD 1) s
      else if fb1.extractLsb' 4 2 = 2 then
        if fb2.getLsbD 1 = true then varXpadWithCi p body.reverse s else varXpadCont p body.reverse s
      else s := by
  have field (hi lo : Nat) (v : BitVec (hi + 1 - lo)) :
      bitField fb1 hi lo = v.toNat ↔ fb1.extractLsb' lo (hi + 1 - lo) = v := by
    rw [bitField_eq_toNat_extractLsb', BitVec.toNat_inj]
  have htype : Tables.fpadType fb1 = Tables.fpadTypeXpad ↔ fb1.extractLsb' 6 2 = 0 := field 7 6 0
  have hshort : Tables.xpadIndicator fb1 = Tables.xpadShort ↔ fb1.extractLsb' 4 2 = 1 := field 5 4 1
  have hvariable : Tables.xpadIndicator fb1 = Tables.xpadVariable ↔ fb1.extractLsb' 4 2 = 2 := field 5 4 2
  simp only [processPad, fpadByte1_laidOut, fpadByte2_laidOut, xpad_laidOut, ne_eq, htype, hshort, hvariable]

/-- Settles O51: by `processPad_laidOut`, a non-zero F-PAD type ends at once, and the indicators 0 and 3 are neither the
short one nor the variable one. -/
theorem frameWithoutXpadDoesNothing : Obligations.FrameWithoutXpadDoesNothing := by
  intro p body fb1 fb2 s h
  rw [processPad_laidOut]
  rcases h with htype | hnone | hreserved
  · rw [if_pos htype]
  · simp [hnone]
  · simp [hreserved]

/-- The short indicator with F-PAD type 0: the frame has a short X-PAD (R230, R235). -/
theorem processPad_short (p : Params) (body : List Byte) (fb1 fb2 : Byte) (s : State) (h : fb1.extractLsb' 4 4 = 0x1) :
    processPad p (body ++ [fb1, fb2]) s = shortXpad body.reverse (fb2.getLsbD 1) s := by
  have htype : fb1.extractLsb' 6 2 = 0 := by
    rw [← extractLsb'_extractLsb' fb1 (start := 4) (len := 4) (i := 2) le_rfl, h]
    rfl
  have hshort : fb1.extractLsb' 4 2 = 1 := by
    rw [← extractLsb'_extractLsb' fb1 (start := 4) (len := 4) (i := 0) (by decide), h]
    rfl
  rw [processPad_laidOut, if_neg (not_not.2 htype), if_pos hshort]

/-- A short X-PAD with a contents indicator: the indicator's type is kept, the three bytes behind it are forwarded (R235). -/
theorem shortXpad_withCi (x0 x1 x2 x3 : Byte) (rest : List Byte) (s : State) :
    shortXpad (x0 :: x1 :: x2 :: x3 :: rest) true s =
      { s with
        shortPrevApp := x0.extractLsb' 0 5
        output := s.output ++ [⟨0x06, [(x0.extractLsb' 0 5).setWidth 8, 1, x1, x2, x3]⟩] } := rfl

/-- A short X-PAD without one: all four bytes are forwarded under the previous type (R235). -/
theorem shortXpad_withoutCi (x0 x1 x2 x3 : Byte) (rest : List Byte) (s : State) :
    shortXpad (x0 :: x1 :: x2 :: x3 :: rest) false s =
      { s with output := s.output ++ [⟨0x06, [s.shortPrevApp.setWidth 8, 0, x0, x1, x2, x3]⟩] } := rfl

/-- Settles O52: the X-PAD is read backwards, so its first four bytes stand last before the F-PAD; the CI flag says which of
the two forms of short X-PAD they are. -/
theorem shortXpadEffect : Obligations.ShortXpadEffect := by
  intro p body x0 x1 x2 x3 fb1 fb2 s h
  have hlayout : body ++ [x3, x2, x1, x0, fb1, fb2] = (body ++ [x3, x2, x1, x0]) ++ [fb1, fb2] := by simp
  have hbackwards : (body ++ [x3, x2, x1, x0]).reverse = x0 :: x1 :: x2 :: x3 :: body.reverse := by simp
  rw [hlayout, processPad_short p _ fb1 fb2 s h, hbackwards]
  cases fb2.getLsbD 1 with
  | true => exact shortXpad_withCi x0 x1 x2 x3 body.reverse s
  | false => exact shortXpad_withoutCi x0 x1 x2 x3 body.reverse s

end Sys2Proof.Machine

/-! SUPPORT. The encoding: a command's bytes as a word and a payload, and the four statements on decoding (R80 to R87). -/

namespace Sys2Proof

/-- The bytes of a command, one by one, with bytes behind them (R80). -/
theorem encode_append (i : Instr) (rest : List Byte) :
    encode i ++ rest =
      i.opcode :: i.rsv :: i.arg.extractLsb' 8 8 :: i.arg.extractLsb' 0 8 :: (i.payload ++ rest) := by
  simp [encode, commandWord, be16Bytes]

/-- Only opcode 0x03 has a payload (R82). -/
theorem Instr.payload_eq_nil {i : Instr} (h : i.opcode ≠ 0x03) : i.payload = [] := by
  cases i with
  | addFrame => exact absurd rfl h
  | _ => rfl

/-- Opcode 0x03 is ADD_FRAME's alone (R81). -/
theorem Instr.eq_addFrame {i : Instr} (h : i.opcode = 0x03) : i = .addFrame i.rsv i.payload := by
  cases i with
  | addFrame => rfl
  | reserved08 | reserved10 | reserved20 | reserved40 | reserved80 =>
    exact False.elim ((opcode_range _).1 (by rw [h]; decide))
  | _ => cases h

theorem decode_encode {i : Instr} (hwf : i.wellFormed = true) (rest : List Byte) :
    decode (encode i ++ rest) = .ok (i, rest) := by
  rw [encode_append, decode_word, be16_be16Bytes]
  by_cases h3 : i.opcode = 0x03
  · obtain ⟨rsv, payload, rfl⟩ : ∃ rsv payload, i = .addFrame rsv payload := ⟨_, _, Instr.eq_addFrame h3⟩
    have hlen : (Instr.addFrame rsv payload).arg.toNat = payload.length :=
      Nat.mod_eq_of_lt (of_decide_eq_true hwf)
    simp [hlen, h3, Instr.payload, Instr.rsv]
  · rw [if_neg h3, decodeWord_of_instr i h3, Instr.payload_eq_nil h3, List.nil_append]

theorem encode_decode {bytes rest : List Byte} {i : Instr} (h : decode bytes = .ok (i, rest)) :
    i.wellFormed = true ∧ encode i ++ rest = bytes := by
  rcases word_cases bytes with hshort | ⟨op, rsv, a1, a0, tail, rfl⟩
  · rw [decode_short _ hshort] at h
    cases h
  · have hbytes : [(be16 a1 a0).extractLsb' 8 8, (be16 a1 a0).extractLsb' 0 8] = [a1, a0] := be16Bytes_be16 a1 a0
    obtain ⟨hhigh, hlow⟩ := List.cons_eq_cons.1 hbytes
    rw [decode_word] at h
    split_ifs at h with h3 hlen
    · cases h
      have hlt := (be16 a1 a0).isLt
      have htake : (tail.take (be16 a1 a0).toNat).length = (be16 a1 a0).toNat := List.length_take_of_le hlen
      have harg : (Instr.addFrame rsv (tail.take (be16 a1 a0).toNat)).arg = be16 a1 a0 := by
        rw [Instr.arg, htake, BitVec.ofNat_toNat, BitVec.setWidth_eq]
      refine ⟨decide_eq_true (by omega), ?_⟩
      rw [encode_append, harg, hhigh, List.singleton_inj.1 hlow]
      simp [Instr.opcode, Instr.rsv, Instr.payload, h3]
    · cases h
      obtain ⟨hop, hrsv, harg, hpayload, hwf⟩ := decodeWord_fields op rsv (be16 a1 a0) h3
      refine ⟨hwf, ?_⟩
      rw [encode_append, hop, hrsv, harg, hpayload, hhigh, List.singleton_inj.1 hlow, List.nil_append]

/-- Settles O1: the word of a command is read back field by field, and `arg` counts its payload. -/
theorem decodeInvertsEncode : Obligations.DecodeInvertsEncode :=
  fun _ rest hwf => decode_encode hwf rest

/-- Settles O2: bytes that decode begin with a whole word, whose four bytes and payload the command keeps. -/
theorem encodeInvertsDecode : Obligations.EncodeInvertsDecode :=
  fun _ _ _ h => encode_decode h

/-- Settles O3: the decoder evaluates on each of the words. -/
theorem sampleWordsDecode : Obligations.SampleWordsDecode :=
  ⟨rfl, rfl, rfl, rfl, rfl, rfl, rfl, rfl, rfl, rfl, rfl, rfl, rfl⟩

/-- Settles O4: by `decode_word` for opcode 0x03, and `decodeWord_fields` for the others. -/
theorem commandExtent : Obligations.CommandExtent := by
  intro op rsv a1 a0 tail
  rw [decode_word]
  by_cases h3 : op = 0x03
  · rw [if_pos h3, if_pos h3]
    split
    · rfl
    · rfl
  · obtain ⟨hop, hrsv, harg, hpayload, -⟩ := decodeWord_fields op rsv (be16 a1 a0) h3
    rw [if_neg h3, if_neg h3]
    exact ⟨_, rfl, hop, hrsv, harg, hpayload⟩

end Sys2Proof

/-! SUPPORT. Steps and holds (R15, R78, R334 to R342): when a command decodes, what a step reads and leaves of the host
interface, and the five statements. -/

namespace Sys2Proof

/-- When the head of a stream decodes (R340): it holds a whole word and, for ADD_FRAME, the payload. -/
theorem decode_eq_error {bytes : List Byte} (hne : bytes ≠ [])
    (h : bytes.length < 4 ∨ byteAt bytes 0 = 0x03 ∧
      bytes.length < 4 + (be16 (byteAt bytes 2) (byteAt bytes 3)).toNat) :
    ∃ e, decode bytes = .error e ∧ Machine.holdOf e = .incompleteCommand := by
  rcases word_cases bytes with hshort | ⟨op, rsv, a1, a0, tail, rfl⟩
  · exact ⟨_, decode_short _ hshort, by rw [if_neg hne]; rfl⟩
  · obtain hshort | ⟨h3, hlen⟩ := h
    · simp at hshort
      omega
    · have hop : op = 0x03 := h3
      have hpayload : ¬(be16 a1 a0).toNat ≤ tail.length := by simp [byteAt] at hlen; omega
      exact ⟨_, by rw [decode_word, if_pos hop, if_neg hpayload], rfl⟩

theorem decode_eq_ok {bytes : List Byte}
    (h : ¬(bytes.length < 4 ∨ byteAt bytes 0 = 0x03 ∧
      bytes.length < 4 + (be16 (byteAt bytes 2) (byteAt bytes 3)).toNat)) :
    ∃ i rest, decode bytes = .ok (i, rest) := by
  obtain ⟨hlong, hpayload⟩ := not_or.1 h
  obtain ⟨op, rsv, a1, a0, tail, rfl⟩ := (word_cases bytes).resolve_left hlong
  rw [decode_word]
  by_cases h3 : op = 0x03
  · have hlen : (be16 a1 a0).toNat ≤ tail.length := by
      simp [byteAt, h3] at hpayload
      omega
    exact ⟨_, _, by rw [if_pos h3, if_pos hlen]⟩
  · exact ⟨_, _, if_neg h3⟩

end Sys2Proof

namespace Sys2Proof.Machine

/-- A record is unaccepted and the consumer is not ready: the block holds (R78). -/
abbrev Held (s : State) : Prop := s.acceptsNow = false ∧ s.accepted < s.output.length

theorem step_of_held {s : State} (h : Held s) : step s = .refused .awaitingConsumer := by
  rw [step, fetch_consumerTakes, if_pos h]

theorem step_of_decode_error {s : State} (h : ¬Held s) {e : DecodeError} (hd : decode s.input = .error e) :
    step s = .refused (holdOf e) := by
  rw [step, fetch_consumerTakes, if_neg h, hd]

theorem ready_of_not_held {s : State} (h : ¬Held s) : s.acceptsNow = true ∨ s.output.length ≤ s.accepted := by
  rcases hnow : s.acceptsNow
  · exact .inr (not_lt.1 fun hlt => h ⟨hnow, hlt⟩)
  · exact .inl rfl

/-- Every command completes (R15, R310). -/
theorem exec_completes (i : Instr) (s : State) : ∃ t, exec i s = .next t := by
  obtain ⟨t, events, errors, h⟩ := exec_withHost i s
  exact ⟨_, h s.hostView⟩

/-- Only an unaccepted record holds a step up for the consumer (R78, R340). -/
theorem held_of_step {s : State} (h : step s = .refused .awaitingConsumer) : Held s := by
  by_contra hfree
  rcases hd : decode s.input with e | ⟨i, rest⟩
  · rw [step_of_decode_error hfree hd] at h
    cases e <;> cases h
  · obtain ⟨t, ht⟩ := exec_completes i (s.afterFetch rest)
    rw [step_of_decode (ready_of_not_held hfree) hd, ht] at h
    cases h

/-- While the block is held, no move adds a record (R78). -/
theorem output_eq_of_held {σ : Nat → State} (hrun : Run σ) {n : Nat} (hheld : ∀ m, n ≤ m → Held (σ m)) {m : Nat}
    (hnm : n ≤ m) : (σ m).output = (σ n).output := by
  induction m, hnm using Nat.le_induction with
  | base => rfl
  | succ m hnm ih =>
    obtain heq | hstep := (hrun m).output
    · rw [heq, ih]
    · rw [step_of_held (hheld m hnm)] at hstep
      cases hstep

/-- Settles O6: the four clauses follow the hold, the decoder's errors and `exec_completes`; a hold that lasted would keep the
records fixed, and `consumer_ready` accepts all of them. -/
theorem stepHoldsExactlyWhen : Obligations.StepHoldsExactlyWhen := by
  refine ⟨fun s => ?_, fun σ hrun hready n => ?_⟩
  · split_ifs with hheld hempty hpart
    · exact step_of_held hheld
    · exact step_of_decode_error hheld (e := .endOfInput) (by rw [hempty]; rfl)
    · obtain ⟨e, hd, hhold⟩ := decode_eq_error hempty hpart
      rw [step_of_decode_error hheld hd, hhold]
    · obtain ⟨i, rest, hd⟩ := decode_eq_ok hpart
      rw [step_of_decode (ready_of_not_held hheld) hd]
      exact exec_completes i _
  · by_contra hlasts
    push Not at hlasts
    have hheld (m : Nat) (hm : n ≤ m) : Held (σ m) := held_of_step (hlasts m hm)
    obtain ⟨m, hm, haccepted⟩ := hready n
    have hpending := (hheld m hm).2
    rw [output_eq_of_held hrun hheld hm] at hpending
    omega

/-- Settles O5: `afterFetch` is the state at which the command executes. -/
theorem stepRunsDecodedCommand : Obligations.StepRunsDecodedCommand :=
  fun _ _ _ hready hd => step_of_decode hready hd

/-- Settles O7: the command decoded is the one whose encoding was consumed, by `encode_decode`; on an aligned stream that is
the first of the host's commands, by `decode_encode`. -/
theorem stepConsumesItsCommand : Obligations.StepConsumesItsCommand := by
  intro s t hstep
  obtain ⟨i, rest, hd, -, hexec⟩ := step_next_cases hstep
  obtain ⟨hin, hnow, -⟩ := exec_next_host hexec
  obtain rfl : t.input = rest := hin
  obtain ⟨-, hbytes⟩ := encode_decode hd
  refine ⟨hnow, ⟨i, hbytes.symm, hd⟩, fun j commands haligned => ?_⟩
  obtain ⟨hwf, tail, htail⟩ := haligned
  rw [List.flatMap_cons, List.append_assoc] at htail
  have hfirst := decode_encode (hwf j List.mem_cons_self) (commands.flatMap encode ++ tail)
  rw [htail, hd] at hfirst
  obtain ⟨rfl, hrest⟩ := Prod.mk.inj (Except.ok.inj hfirst)
  exact ⟨hd, fun k hk => hwf k (List.mem_cons_of_mem _ hk), tail, hrest.symm⟩

/-- States with the same block state differ in their host views alone. -/
theorem eq_withHost_of_blockOnly_eq {s u : State} (h : u.blockOnly = s.blockOnly) : u = s.withHost u.hostView := by
  calc u = u.blockOnly.withHost u.hostView := rfl
    _ = s.blockOnly.withHost u.hostView := by rw [h]
    _ = s.withHost u.hostView := rfl

/-- Settles O9: by `exec_withHost`, a command is the same function of the block's own state at every host view. -/
theorem commandsReadOnlyTheBlockState : Obligations.CommandsReadOnlyTheBlockState := by
  intro i s
  obtain ⟨t, events, errors, h⟩ := exec_withHost i s
  refine ⟨t, events, errors, fun u hu => ?_⟩
  rw [eq_withHost_of_blockOnly_eq hu, h]
  rfl

/-- A command takes unread bytes along unchanged (R72). -/
theorem exec_hostSend {i : Instr} {s t : State} (h : exec i s = .next t) (more : List Byte) :
    exec i (s.hostSend more) = .next (t.hostSend more) := by
  obtain ⟨u, events, errors, hu⟩ := exec_withHost i s
  have ht := (hu s.hostView).symm.trans h
  cases ht
  exact hu (s.hostSend more).hostView

/-- Settles O10: the decoded command is the same with more bytes behind it, and the command does not see them. -/
theorem laterBytesDoNotChangeAStep : Obligations.LaterBytesDoNotChangeAStep := by
  intro s t more hstep
  obtain ⟨i, rest, hd, hfree, hexec⟩ := step_next_cases hstep
  have hd' : decode (s.hostSend more).input = .ok (i, rest ++ more) := decode_append more hd
  rw [step_of_decode (s := s.hostSend more) (ready_of_not_held hfree) hd']
  exact exec_hostSend hexec more

end Sys2Proof.Machine

/-! SUPPORT. The control commands (R120 to R135): each as one update of the state, the registers they show, and the
statements on them and on reset. -/

namespace Sys2Proof.Machine

/-- A defined command with `rsv` 0 is its effect (R85, R128). -/
@[simp] theorem checkRsv_zero (op : Byte) (command : State → State) (s : State) : checkRsv op 0 command s = command s := rfl

/-- A CONFIG value that is no legal bitrate (R121, R123). -/
theorem config_illegal {p : Params} {b : Half} (h : legalBitrate p b = false) (s : State) :
    config p b s = configIllegal b s := by
  rw [config, h]
  rfl

/-- A CONFIG with the current bitrate (R121). -/
theorem config_same {p : Params} {b : Half} {s : State} (h : legalBitrate p b = true) (hb : b = s.cfgBitrate) :
    config p b s = s := by
  rw [config, h, if_neg (by decide), if_pos hb]

/-- A CONFIG with another legal bitrate (R121, R124). -/
theorem config_new {p : Params} {b : Half} {s : State} (h : legalBitrate p b = true) (hb : b ≠ s.cfgBitrate) :
    config p b s = setConfig b false (sessionReset s) := by
  rw [config, h, if_neg (by decide), if_neg hb]

@[simp] theorem regIndex_be16 (high idx : Byte) : regIndex (be16 high idx) = idx := by
  apply BitVec.eq_of_toNat_eq
  rw [regIndex, BitVec.extractLsb'_toNat, toNat_be16, Nat.shiftRight_zero]
  omega

/-- Settles O11: with `rsv` 0 nothing is left to do. -/
theorem nopChangesNothing : Obligations.NopChangesNothing := fun _ _ => rfl

/-- Settles O12: the three branches of `config`, and what SessionReset leaves is what `State.reset` has. -/
theorem configEffect : Obligations.ConfigEffect := by
  intro b s
  change Host.Outcome.next (config Config.hw b s) = _
  split_ifs with hlegal hsame
  · rw [config_same ((legalBitrate_hw b).2 hlegal) hsame]
  · rw [config_new ((legalBitrate_hw b).2 hlegal) hsame]
    rfl
  · rw [config_illegal (Bool.eq_false_iff.2 fun h => hlegal ((legalBitrate_hw b).1 h))]
    rfl

/-- Settles O13: SessionReset writes every session field with its value in `State.reset`. -/
theorem channelResetEffect : Obligations.ChannelResetEffect := fun _ _ => rfl

/-- Settles O14: `readRegister` finds a value exactly at the assigned indices, and READ_REG turns on it. -/
theorem readRegEffect : Obligations.ReadRegEffect := by
  intro high idx s
  have hassigned := readRegister_isSome Config.hw s idx
  have hexec : exec (.readReg 0 (be16 high idx)) s = .next (readReg Config.hw idx s) :=
    congrArg (fun i => Host.Outcome.next (readReg Config.hw i s)) (regIndex_be16 high idx)
  rw [hexec, readReg]
  split_ifs with hidx
  · rw [decide_eq_true hidx] at hassigned
    obtain ⟨v, hv⟩ := Option.isSome_iff_exists.1 hassigned
    exact ⟨v, hv, by rw [hv]; rfl⟩
  · rw [decide_eq_false hidx] at hassigned
    rw [Option.isSome_eq_false_iff, Option.isNone_iff_eq_none] at hassigned
    rw [hassigned]
    rfl

/-- Settles O15: each index is a row of the register map. -/
theorem registerMapValues : Obligations.RegisterMapValues :=
  fun _ => ⟨rfl, rfl, rfl, rfl, rfl, rfl, rfl, rfl, rfl, rfl, rfl⟩

/-- Settles O18: the registers of `snapshotRegs` stand at the indices 0x02 to 0x0B. -/
theorem snapshotEffect : Obligations.SnapshotEffect := fun _ _ => rfl

/-- Settles O19: the record is `labelReadEvent` of the completed label. -/
theorem readLabelEffect : Obligations.ReadLabelEffect := fun _ _ => rfl

/-- Settles O20: a reserved opcode is CommandError code 1. -/
theorem reservedOpcodeEffect : Obligations.ReservedOpcodeEffect := fun _ s h => exec_of_reserved h s

/-- Settles O21: a non-zero `rsv` is CommandError code 2. -/
theorem nonzeroRsvEffect : Obligations.NonzeroRsvEffect := fun _ s hdef hrsv => exec_of_rsv_ne_zero hdef hrsv s

/-- A checked command changes no state of the block if its effect does not. -/
theorem checkRsv_blockOnly {op rsv : Byte} {command : State → State} {s : State}
    (h : (command s).blockOnly = s.blockOnly) : (checkRsv op rsv command s).blockOnly = s.blockOnly := by
  unfold checkRsv
  split
  · exact h
  · exact commandError_blockOnly op 2 s

theorem readReg_blockOnly (p : Params) (idx : Byte) (s : State) : (readReg p idx s).blockOnly = s.blockOnly := by
  unfold readReg
  split <;> rfl

/-- Settles O22: the four readers emit at most, and the other opcodes are not on the list. -/
theorem readersChangeNoBlockState : Obligations.ReadersChangeNoBlockState := by
  intro i s hop
  cases i with
  | nop | snapshot | readLabel => exact ⟨_, rfl, checkRsv_blockOnly rfl⟩
  | readReg rsv arg => exact ⟨_, rfl, checkRsv_blockOnly (readReg_blockOnly _ _ s)⟩
  | config | channelReset | addFrame => simp [Instr.opcode] at hop
  | reserved07 | reserved08 | reserved10 | reserved20 | reserved40 | reserved80 =>
    exact ⟨_, rfl, commandError_blockOnly _ _ s⟩

/-- The counters and the success rate read 0 after reset (R48, R50). -/
theorem readRegister_reset_counters {p : Params} {idx : Byte} (hlow : 0x02 ≤ idx.toNat) (hhigh : idx.toNat ≤ 0x0B) :
    readRegister p State.reset idx = some 0 := by
  obtain ⟨⟨n, hn⟩⟩ := idx
  simp only [BitVec.toNat_ofFin] at hlow hhigh
  interval_cases n <;> rfl

/-- Settles O23: the constants, the two ranges that read 0, and the unassigned indices. -/
theorem resetRegisterValues : Obligations.ResetRegisterValues := by
  intro idx
  split_ifs with hid hparams hassigned
  · rw [hid]
    rfl
  · rw [hparams]
    rfl
  · by_cases hcounters : 0x02 ≤ idx.toNat ∧ idx.toNat ≤ 0x0B
    · exact readRegister_reset_counters hcounters.1 hcounters.2
    · exact readRegister_reset_eq_zero (by bv_omega)
  · have hnone := readRegister_isSome Config.hw State.reset idx
    rw [decide_eq_false (by bv_omega), Option.isSome_eq_false_iff, Option.isNone_iff_eq_none] at hnone
    exact hnone

/-- An unconfigured block that is not fatal has a legal configuration. -/
theorem reset_configInv (p : Params) : ConfigInv p State.reset where
  bitrate := .inl rfl
  fatal := by intro h; cases h

/-- Settles O24: the window, the history, the data group and the assembly are empty, and nothing is valid. -/
theorem resetSatisfiesInvariants : Obligations.ResetSatisfiesInvariants where
  left :=
    { config := reset_configInv _
      frameLen := by intro f hf; cases hf
      fill := by decide
      unconfigured := fun _ => rfl }
  right :=
    ⟨{  config := reset_configInv _
        desync := by decide
        locked := by intro h; cases h
        cleared := fun _ => rfl
        table := by intro h; cases h
        nominal := by decide },
      { window := by decide
        pairs := by decide
        rate := rfl
        bound := by decide
        forwarded := by decide },
      { prevLen := by decide
        closed := fun _ => rfl
        partialGroup := by decide
        bound := by decide },
      { inactive := fun _ => rfl
        present := by decide
        absent := by decide
        partialLabel := by decide
        noLabel := fun _ => rfl
        labelLen := by intro h; cases h }⟩

end Sys2Proof.Machine

/-! SUPPORT. Rules for proving that a property of states is kept: the cases of CONFIG and of ADD_FRAME, and the configuration
and window invariants (R21, R25, R121, R150, R168). -/

namespace Sys2Proof.Machine

/-- What a CONFIG can do, past the check of `rsv` (R121). -/
theorem config_cases (p : Params) (b : Half) (s : State) :
    config p b s = configIllegal b s ∨ config p b s = s ∨
      (legalBitrate p b = true ∧ config p b s = setConfig b false (sessionReset s)) := by
  rcases hlegal : legalBitrate p b
  · exact .inl (config_illegal hlegal s)
  · by_cases hb : b = s.cfgBitrate
    · exact .inr (.inl (config_same hlegal hb))
    · exact .inr (.inr ⟨rfl, config_new hlegal hb⟩)

/-- The state in which the window holds an accepted frame, before the pipeline looks at it (R153). -/
def joined (p : Params) (frame : List Byte) (s : State) : State := setFrames (s.frames ++ [frame]) (processPad p frame s)

theorem joined_frames (p : Params) (frame : List Byte) (s : State) : (joined p frame s).frames = s.frames ++ [frame] := rfl

/-- ADD_FRAME has a property if the report of the counters keeps it and the frame, dropped, appended, or appended before a
run of the pipeline, has it (R150). -/
theorem addFrame_rule {P : State → Prop} {p : Params} {frame : List Byte} {s : State}
    (counters : ∀ u, P u → P (emitCountersIfChanged s.counters u))
    (drop : ¬(s.cfgBitrate ≠ 0 ∧ frame.length = s.frameLen) → P (framingError frame.length s))
    (join : s.cfgBitrate ≠ 0 → frame.length = s.frameLen → s.frames.length ≠ 4 → P (joined p frame s))
    (run : s.cfgBitrate ≠ 0 → frame.length = s.frameLen → s.frames.length = 4 → P (superframe p (joined p frame s))) :
    P (addFrame p frame s) := by
  obtain ⟨u, heq, h⟩ := addFrame_cases p frame s
  rw [heq]
  refine counters u ?_
  rcases h with ⟨hbad, rfl⟩ | ⟨⟨hcfg, hlen⟩, hfill, rfl⟩ | ⟨⟨hcfg, hlen⟩, hfill, rfl⟩
  · exact drop hbad
  · exact join hcfg hlen hfill
  · exact run hcfg hlen hfill

/-- This hardware's parameters are legal (R8). -/
theorem paramsLegal_hw : ParamsLegal Config.hw := by decide

/-! The configuration. -/

theorem ConfigInv.congr {p : Params} {s t : State} (h : ConfigInv p s) (hcfg : t.cfgBitrate = s.cfgBitrate)
    (hfatal : t.fatal = s.fatal) : ConfigInv p t where
  bitrate := hcfg ▸ h.bitrate
  fatal := by rw [hfatal, hcfg]; exact h.fatal

theorem configInv_configIllegal (p : Params) (b : Half) (s : State) : ConfigInv p (configIllegal b s) where
  bitrate := .inl rfl
  fatal := fun _ => rfl

theorem configInv_setConfig {p : Params} {b : Half} (h : legalBitrate p b = true) (s : State) :
    ConfigInv p (setConfig b false s) where
  bitrate := .inr h
  fatal := by intro hf; cases hf

/-- The largest subchannel (R8, R9). -/
theorem ConfigInv.subchannel_le {p : Params} {s : State} (h : ConfigInv p s) : s.subchannel ≤ p.sMax := by
  have hdef : s.subchannel = s.cfgBitrate.toNat / 8 := rfl
  rw [hdef]
  rcases h.bitrate with hzero | hlegal
  · rw [hzero]
    exact Nat.zero_le _
  · have hmax := of_decide_eq_true (Bool.and_eq_true_iff.1 hlegal).2
    rw [Tables.bitrateUnit_eq] at hmax
    omega

theorem frameLen_congr {s t : State} (h : t.cfgBitrate = s.cfgBitrate) : t.frameLen = s.frameLen := by
  rw [State.frameLen, State.frameLen, State.subchannel, State.subchannel, h]

theorem subchannel_congr {s t : State} (h : t.cfgBitrate = s.cfgBitrate) : t.subchannel = s.subchannel := by
  rw [State.subchannel, State.subchannel, h]

/-! The window. -/

theorem WindowInv.congr {p : Params} {s t : State} (h : WindowInv p s) (hcfg : t.cfgBitrate = s.cfgBitrate)
    (hfatal : t.fatal = s.fatal) (hframes : t.frames = s.frames) : WindowInv p t where
  config := h.config.congr hcfg hfatal
  frameLen := by rw [hframes, frameLen_congr hcfg]; exact h.frameLen
  fill := hframes ▸ h.fill
  unconfigured := by rw [hcfg, hframes]; exact h.unconfigured

/-- An empty window is one of any configuration. -/
theorem WindowInv.of_empty {p : Params} {s : State} (h : ConfigInv p s) (hframes : s.frames = []) : WindowInv p s where
  config := h
  frameLen := by intro f hf; rw [hframes] at hf; cases hf
  fill := by rw [hframes]; exact Nat.zero_le _
  unconfigured := fun _ => hframes

/-- Without the boundary hunt the pipeline empties the window, whatever the outcome (R156, R163). -/
theorem nextFrames_hw (outcome : SfOutcome) (frames : List (List Byte)) : nextFrames Config.hw outcome frames = [] :=
  if_neg fun h => absurd h.2 (by decide)

theorem WindowInv.joined {p : Params} {frame : List Byte} {s : State} (h : WindowInv p s) (hcfg : s.cfgBitrate ≠ 0)
    (hlen : frame.length = s.frameLen) (hfill : s.frames.length ≠ 4) : WindowInv p (joined p frame s) := by
  have hkeeps := processPad_keeps p frame s
  have hcfg' : (Machine.joined p frame s).cfgBitrate = s.cfgBitrate := hkeeps.cfgBitrate
  have hroom := h.fill
  rw [show Config.framesPerSf - 1 = 4 from rfl] at hroom
  refine ⟨h.config.congr hkeeps.cfgBitrate hkeeps.fatal, ?_, ?_, fun hzero => absurd (hcfg' ▸ hzero) hcfg⟩
  · rw [joined_frames, frameLen_congr hcfg']
    simpa [or_imp, forall_and, hlen] using h.frameLen
  · rw [joined_frames, List.length_append, List.length_singleton]
    exact Nat.lt_of_le_of_ne hroom hfill

/-- What every step's operations keep of the window (R25, R168). -/
theorem windowInv_closed : StepClosed (WindowInv Config.hw) where
  fetched s _ _ h := h.congr rfl rfl rfl
  event e s _ h := h.congr rfl rfl rfl
  commandError op code s h := h.congr rfl rfl rfl
  config b s h := by
    rcases config_cases Config.hw b s with heq | heq | ⟨hlegal, heq⟩ <;> rw [heq]
    · exact .of_empty (configInv_configIllegal _ b s) rfl
    · exact h
    · exact .of_empty (configInv_setConfig hlegal _) rfl
  reset s h := .of_empty (h.config.congr rfl rfl) rfl
  addFrame frame s h := by
    refine addFrame_rule (fun u hu => hu.congr (by simp) (by simp) (by simp)) (fun _ => h.congr rfl rfl rfl)
      (fun hcfg hlen hfill => h.joined hcfg hlen hfill) fun _ _ _ => ?_
    have hkeeps := processPad_keeps Config.hw frame s
    obtain ⟨hcfg, hfatal, -⟩ := superframe_keeps Config.hw (joined Config.hw frame s)
    exact .of_empty (h.config.congr (hcfg.trans hkeeps.cfgBitrate) (hfatal.trans hkeeps.fatal))
      (nextFrames_hw _ _)

/-- Settles O25: only CONFIG, CHANNEL_RESET and ADD_FRAME write the window; a fifth frame empties it. -/
theorem stepKeepsWindowInv : Obligations.StepKeepsWindowInv :=
  fun _ _ h hstep => windowInv_closed.step h hstep

end Sys2Proof.Machine

/-! SUPPORT. The frame-boundary state machine (R26 to R30, R160 to R163): a header configuration stored and read back, what
the header decision makes of the stored table, and the statement. -/

namespace Sys2Proof.Machine

/-- A header configuration that fits the AU Start Table is read back from the sticky configuration (R29, R162). -/
theorem config_store {h : HeaderConfig} (hn : h.n < 10) (hlen : h.auStart.length = h.n + 1)
    (hentry : ∀ a ∈ h.auStart, a < 65536) : (LastGood.store h).config = h := by
  have hcount : (LastGood.store h).numAus.toNat = h.n := Nat.mod_eq_of_lt (by omega)
  have htable : ((LastGood.store h).auStart.toList.take (h.n + 1)).map (·.toNat) = h.auStart := by
    refine List.ext_getElem (by simp [hlen]; omega) fun i _ hi => ?_
    have hlt := hentry _ (List.getElem_mem hi)
    have hget : h.auStart.getD i 0 = h.auStart[i] := by simp [hi]
    simp only [List.getElem_map, List.getElem_take, Vector.getElem_toList, LastGood.store, Vector.getElem_ofFn, hget,
      BitVec.toNat_ofNat]
    exact Nat.mod_eq_of_lt hlt
  unfold LastGood.config
  rw [hcount, htable]
  rfl

/-- The AU counts of R102 fit the AU Start Table and the success rate's pairs. -/
theorem parseHeader_n_le (size : Nat) (data : List Byte) : (parseHeader size data).n ≤ 6 := by
  have hn := parseHeader_n size data
  simp only [List.mem_cons, List.not_mem_nil, or_false] at hn
  omega

/-- An accepted header is read back from the sticky configuration, for every legal subchannel size (R29, R162). -/
theorem config_store_parseHeader {size : Nat} (hsize : size ≤ 37) (data : List Byte) :
    (LastGood.store (parseHeader size data)).config = parseHeader size data := by
  have hn := parseHeader_n_le size data
  exact config_store (by omega) (parseHeader_length size data)
    fun a ha => parseHeader_entry (by rw [Tables.rsDataLen_eq]; omega) data ha

/-- The sticky configuration of an accepted header holds a valid table (R28, R29). -/
theorem storedTable_of_parseHeader {s : State} (hsize : s.subchannel ≤ 37) {data : List Byte}
    (hlg : s.lastGood = LastGood.store (parseHeader s.subchannel data))
    (hvalid : tableValid (parseHeader s.subchannel data) = true) : StoredTable s := by
  have hconfig : s.lastGood.config = parseHeader s.subchannel data := by rw [hlg, config_store_parseHeader hsize]
  have hn := parseHeader_n_le s.subchannel data
  have hcount : s.lastGood.numAus.toNat = (parseHeader s.subchannel data).n := by
    rw [hlg]
    exact Nat.mod_eq_of_lt (by omega)
  have hhdr : s.lastGood.hdr = (parseHeader s.subchannel data).hdr := by rw [hlg]; rfl
  constructor
  case count => rw [hcount, hhdr]; rfl
  case first => rw [hconfig, hhdr]; rfl
  case last => rw [hconfig, parseHeader, List.getLast?_append]; rfl
  case increasing => rw [hconfig, hvalid]
  case unused =>
    intro k hk
    have hbeyond : (parseHeader s.subchannel data).auStart.length ≤ k.val := by
      rw [parseHeader_length, ← hcount]
      exact hk
    rw [hlg]
    simp [LastGood.store, List.getElem?_eq_none hbeyond]

theorem StoredTable.congr {s t : State} (h : StoredTable s) (hcfg : t.cfgBitrate = s.cfgBitrate)
    (hlg : t.lastGood = s.lastGood) : StoredTable t := by
  obtain ⟨hcount, hfirst, hlast, hincreasing, hunused⟩ := h
  constructor <;> rw [hlg]
  · exact hcount
  · exact hfirst
  · rw [subchannel_congr hcfg]
    exact hlast
  · exact hincreasing
  · exact hunused

theorem HeaderInv.congr {p : Params} {s t : State} (h : HeaderInv p s) (hcfg : t.cfgBitrate = s.cfgBitrate)
    (hfatal : t.fatal = s.fatal) (hsync : t.syncState = s.syncState) (hrun : t.failRun = s.failRun)
    (hlg : t.lastGood = s.lastGood) (hnominal : t.nominalAus = s.nominalAus) : HeaderInv p t where
  config := h.config.congr hcfg hfatal
  desync := by rw [hsync, hrun]; exact h.desync
  locked := by rw [hlg, hsync]; exact h.locked
  cleared := by rw [hlg]; exact h.cleared
  table := by rw [hlg]; exact fun hv => (h.table hv).congr hcfg hlg
  nominal := hnominal ▸ h.nominal

/-- The header state after a session reset, in any legal configuration (R126). -/
theorem HeaderInv.of_reset {p : Params} (hp : ParamsLegal p) {s : State} (h : ConfigInv p s)
    (hsync : s.syncState = .noHeader) (hrun : s.failRun = 0) (hlg : s.lastGood = LastGood.cleared)
    (hnominal : s.nominalAus = 0) : HeaderInv p s where
  config := h
  desync := by
    obtain ⟨-, ⟨hone, -⟩, -⟩ := hp
    simp [hsync, hrun]
    omega
  locked := by rw [hlg]; intro hv; cases hv
  cleared := fun _ => hlg
  table := by rw [hlg]; intro hv; cases hv
  nominal := by rw [hnominal]; decide

theorem HeaderInv.joined {p : Params} {s : State} (h : HeaderInv p s) (frame : List Byte) :
    HeaderInv p (joined p frame s) :=
  have hk := processPad_keeps p frame s
  h.congr hk.cfgBitrate hk.fatal hk.syncState hk.failRun hk.lastGood hk.nominalAus

/-- The configuration in use has 2, 3, 4 or 6 AUs: it is the candidate, or a stored table (R102). -/
theorem HeaderInv.use_n {p : Params} {s : State} (h : HeaderInv p s) {c : HeaderConfig}
    (hu : (sfDecision p s).use = some c) : c.n ∈ [2, 3, 4, 6] := by
  rcases decideHeader_use hu with ⟨-, -, rfl⟩ | ⟨-, hvalid, -, rfl⟩
  · exact parseHeader_n _ _
  · change s.lastGood.numAus.toNat ∈ _
    rw [(h.table hvalid).count]
    rcases auTable_cases (s.lastGood.hdr.getLsbD 6) (s.lastGood.hdr.getLsbD 5) with e | e | e | e <;> rw [e] <;> decide

/-- `nominal_aus` after the pipeline (R30, R164). -/
theorem HeaderInv.superframe_nominal {p : Params} {s : State} (h : HeaderInv p s) :
    (superframe p s).nominalAus.toNat ∈ [0, 2, 3, 4, 6] := by
  rw [superframe_nominalAus]
  rcases hu : (sfDecision p s).use with _ | c
  · exact h.nominal
  · have hn := h.use_n hu
    simp only [List.mem_cons, List.not_mem_nil, or_false] at hn ⊢
    rw [BitVec.toNat_ofNat]
    omega

/-- A header that passes locks, and stores its table if it is valid (R160, R161). -/
theorem superframe_header_pass {p : Params} {s : State} (hpass : sfPass p s = true) :
    (superframe p s).syncState = .locked ∧ (superframe p s).failRun = 0 ∧
      (superframe p s).lastGood = if tableValid (sfCand s) = true then LastGood.store (sfCand s) else s.lastGood := by
  rw [superframe_syncState, superframe_failRun, superframe_lastGood, hpass]
  exact applyHeader_pass p (sfCand s) s

/-- A header that fails desynchronises at the threshold, and below it leaves the sticky configuration (R162). -/
theorem superframe_header_fail {p : Params} {s : State} (hfail : sfPass p s = false) :
    (superframe p s).failRun = nextFailRun s ∧
      (superframe p s).syncState = (if p.desyncThreshold ≤ (nextFailRun s).toNat then .desync else s.syncState) ∧
      (superframe p s).lastGood =
        if p.desyncThreshold ≤ (nextFailRun s).toNat then LastGood.cleared else s.lastGood := by
  rw [superframe_syncState, superframe_failRun, superframe_lastGood, hfail]
  exact applyHeader_fail p (sfCand s) s

theorem HeaderInv.superframe_pass {p : Params} (hp : ParamsLegal p) {s : State} (h : HeaderInv p s)
    (hpass : sfPass p s = true) : HeaderInv p (superframe p s) := by
  obtain ⟨⟨-, hmax⟩, ⟨hone, -⟩, -⟩ := hp
  obtain ⟨hcfg, hfatal, -⟩ := superframe_keeps p s
  have hsize : (superframe p s).subchannel ≤ 37 := by
    rw [subchannel_congr hcfg]
    exact h.config.subchannel_le.trans hmax
  obtain ⟨hsync, hrun, hlg⟩ := superframe_header_pass hpass
  have hcand : sfCand s = parseHeader (superframe p s).subchannel (rsDecode s.subchannel s.window).data := by
    rw [subchannel_congr hcfg]
    rfl
  have hconfig := h.config.congr hcfg hfatal
  have hdesync : (superframe p s).syncState = .desync ↔ p.desyncThreshold ≤ (superframe p s).failRun.toNat := by
    simp [hsync, hrun]
    omega
  by_cases hvalid : tableValid (sfCand s) = true
  · rw [if_pos hvalid] at hlg
    exact
      { config := hconfig
        desync := hdesync
        locked := fun _ => hsync
        cleared := by rw [hlg]; intro hv; cases hv
        table := fun _ => storedTable_of_parseHeader hsize (hcand ▸ hlg) (hcand ▸ hvalid)
        nominal := h.superframe_nominal }
  · rw [if_neg hvalid] at hlg
    exact
      { config := hconfig
        desync := hdesync
        locked := fun _ => hsync
        cleared := by rw [hlg]; exact h.cleared
        table := fun hv => (h.table (hlg ▸ hv)).congr hcfg hlg
        nominal := h.superframe_nominal }

theorem HeaderInv.superframe_fail {p : Params} {s : State} (h : HeaderInv p s) (hfail : sfPass p s = false) :
    HeaderInv p (superframe p s) := by
  obtain ⟨hcfg, hfatal, -⟩ := superframe_keeps p s
  obtain ⟨hrun, hsync, hlg⟩ := superframe_header_fail hfail
  have hconfig := h.config.congr hcfg hfatal
  by_cases hthreshold : p.desyncThreshold ≤ (nextFailRun s).toNat
  · rw [if_pos hthreshold] at hsync hlg
    exact
      { config := hconfig
        desync := by simp [hsync, hrun, hthreshold]
        locked := by rw [hlg]; intro hv; cases hv
        cleared := fun _ => hlg
        table := by rw [hlg]; intro hv; cases hv
        nominal := h.superframe_nominal }
  · rw [if_neg hthreshold] at hsync hlg
    have hbefore : ¬p.desyncThreshold ≤ s.failRun.toNat := by
      have := s.failRun.isLt
      rw [nextFailRun, toNat_satAdd8] at hthreshold
      omega
    exact
      { config := hconfig
        desync := by rw [hsync, hrun, h.desync]; exact iff_of_false hbefore hthreshold
        locked := by rw [hlg, hsync]; exact h.locked
        cleared := by rw [hlg]; exact h.cleared
        table := fun hv => (h.table (hlg ▸ hv)).congr hcfg hlg
        nominal := h.superframe_nominal }

theorem HeaderInv.superframe {p : Params} (hp : ParamsLegal p) {s : State} (h : HeaderInv p s) :
    HeaderInv p (superframe p s) := by
  rcases hpass : sfPass p s
  · exact h.superframe_fail hpass
  · exact h.superframe_pass hp hpass

/-- What every step's operations keep of the header state (R26 to R30). -/
theorem headerInv_closed : StepClosed (HeaderInv Config.hw) where
  fetched s _ _ h := h.congr rfl rfl rfl rfl rfl rfl
  event e s _ h := h.congr rfl rfl rfl rfl rfl rfl
  commandError op code s h := h.congr rfl rfl rfl rfl rfl rfl
  config b s h := by
    rcases config_cases Config.hw b s with heq | heq | ⟨hlegal, heq⟩ <;> rw [heq]
    · exact .of_reset paramsLegal_hw (configInv_configIllegal _ b s) rfl rfl rfl rfl
    · exact h
    · exact .of_reset paramsLegal_hw (configInv_setConfig hlegal _) rfl rfl rfl rfl
  reset s h := .of_reset paramsLegal_hw (h.config.congr rfl rfl) rfl rfl rfl rfl
  addFrame frame s h :=
    addFrame_rule (fun u hu => hu.congr (by simp) (by simp) (by simp) (by simp) (by simp) (by simp))
      (fun _ => h.congr rfl rfl rfl rfl rfl rfl) (fun _ _ _ => h.joined frame)
      fun _ _ _ => (h.joined frame).superframe paramsLegal_hw

/-- Settles O26: only the session resets and the pipeline's header decision write the header state. -/
theorem stepKeepsHeaderInv : Obligations.StepKeepsHeaderInv :=
  fun _ _ h hstep => headerInv_closed.step h hstep

end Sys2Proof.Machine

/-! SUPPORT. Telemetry (R32, R281, R284): the history with one pair more, the rate of a history of pairs, the pair and the
counts of a superframe, and the statement. -/

namespace Sys2Proof

/-- Saturating counters in order stay in order under increments in order (R288). -/
theorem satAdd32_le_satAdd32 {c d : Word} {m n : Nat} (h : c ≤ d) (hmn : m ≤ n) : satAdd32 c m ≤ satAdd32 d n := by
  rw [BitVec.le_def] at h
  rw [BitVec.le_def, toNat_satAdd32, toNat_satAdd32]
  omega

end Sys2Proof

namespace Sys2Proof.Machine

/-- A pair of the success rate's history (R32). -/
def RatePair (e : BitVec 3 × BitVec 3) : Prop := e.1 ≤ e.2 ∧ 1 ≤ e.2.toNat ∧ e.2.toNat ≤ 6

theorem mem_pushHist {window : Nat} {hist : List (BitVec 3 × BitVec 3)} {entry e : BitVec 3 × BitVec 3}
    (h : e ∈ pushHist window hist entry) : e ∈ hist ∨ e = entry := by
  unfold pushHist at h
  split at h
  · simpa using List.mem_of_mem_drop h
  · simpa using h

theorem length_pushHist {window : Nat} {hist : List (BitVec 3 × BitVec 3)} (h : hist.length ≤ window)
    (entry : BitVec 3 × BitVec 3) : (pushHist window hist entry).length ≤ window := by
  unfold pushHist
  split
  · simpa using h
  · omega

theorem sumOk_le_sumTot {hist : List (BitVec 3 × BitVec 3)} (h : ∀ e ∈ hist, RatePair e) : sumOk hist ≤ sumTot hist :=
  List.sum_le_sum fun e he => BitVec.le_def.1 (h e he).1

/-- The rate of a history of pairs is a percentage, and fits its byte (R32, R284). -/
theorem rateOf_pairs {hist : List (BitVec 3 × BitVec 3)} (h : ∀ e ∈ hist, RatePair e) :
    (rateOf hist).toNat = 100 * sumOk hist / sumTot hist ∧ (rateOf hist).toNat ≤ 100 := by
  have hbound : 100 * sumOk hist / sumTot hist ≤ 100 :=
    Nat.div_le_of_le_mul (by have := sumOk_le_sumTot h; rw [Nat.mul_comm]; exact Nat.mul_le_mul_right _ this)
  have hrate : (rateOf hist).toNat = 100 * sumOk hist / sumTot hist := Nat.mod_eq_of_lt (by omega)
  exact ⟨hrate, by omega⟩

theorem invalidAus_le_length (aus : List AuRecord) : invalidAus aus ≤ aus.length := List.countP_le_length

theorem ratePair_ofNat {ok tot : Nat} (hle : ok ≤ tot) (hone : 1 ≤ tot) (hsix : tot ≤ 6) :
    RatePair (BitVec.ofNat 3 ok, BitVec.ofNat 3 tot) := by
  simp only [RatePair, BitVec.le_def, BitVec.toNat_ofNat]
  omega

/-- The pair that a superframe adds to the history (R157, R164, R284). -/
theorem HeaderInv.ratePair {p : Params} {s : State} (h : HeaderInv p s) :
    RatePair (BitVec.ofNat 3 ((sfAus p s).length - invalidAus (sfAus p s)), BitVec.ofNat 3 (sfTot p s)) := by
  rcases hu : (sfDecision p s).use with _ | c
  · have hnominal := h.nominal
    simp only [List.mem_cons, List.not_mem_nil, or_false] at hnominal
    have htot : sfTot p s = max s.nominalAus.toNat 1 := by rw [sfTot, hu]
    rw [sfAus_none hu]
    exact ratePair_ofNat (Nat.zero_le _) (by omega) (by omega)
  · have hn := h.use_n hu
    simp only [List.mem_cons, List.not_mem_nil, or_false] at hn
    obtain ⟨hlen, htot⟩ := sfAus_length hu
    exact ratePair_ofNat (by omega) (by omega) (by omega)

theorem TelemetryInv.congr {p : Params} {s t : State} (h : TelemetryInv p s) (hhist : t.srHist = s.srHist)
    (hrate : t.successRate = s.successRate) (herr : t.counters.auErr = s.counters.auErr)
    (hfwd : t.counters.auFwd = s.counters.auFwd) : TelemetryInv p t where
  window := hhist ▸ h.window
  pairs := by rw [hhist]; exact h.pairs
  rate := by rw [hrate, hhist]; exact h.rate
  bound := by rw [hrate]; exact h.bound
  forwarded := by rw [herr, hfwd]; exact h.forwarded

/-- Telemetry after a session reset (R126). -/
theorem TelemetryInv.of_reset {p : Params} {s : State} (hhist : s.srHist = []) (hrate : s.successRate = 0)
    (hcounters : s.counters = Counters.zero) : TelemetryInv p s where
  window := by rw [hhist]; exact Nat.zero_le _
  pairs := by intro e he; rw [hhist] at he; cases he
  rate := by rw [hrate, hhist]; rfl
  bound := by rw [hrate]; decide
  forwarded := by rw [hcounters]; decide

theorem TelemetryInv.joined {p : Params} {s : State} (h : TelemetryInv p s) (frame : List Byte) :
    TelemetryInv p (joined p frame s) :=
  have hk := processPad_keeps p frame s
  h.congr hk.srHist hk.successRate hk.auErr hk.auFwd

theorem TelemetryInv.superframe {p : Params} {s : State} (h : TelemetryInv p s) (hheader : HeaderInv p s) :
    TelemetryInv p (superframe p s) := by
  have hpairs : ∀ e ∈ (Machine.superframe p s).srHist, RatePair e := by
    intro e he
    rw [superframe_srHist] at he
    rcases mem_pushHist he with hold | rfl
    · exact h.pairs e hold
    · exact hheader.ratePair
  obtain ⟨hrate, hbound⟩ := rateOf_pairs hpairs
  constructor
  case window => rw [superframe_srHist]; exact length_pushHist h.window _
  case pairs => exact hpairs
  case rate => rw [superframe_successRate, hrate]
  case bound => rw [superframe_successRate]; exact hbound
  case forwarded =>
    rw [superframe_counters, sfApplied_counters]
    dsimp only
    split
    · exact h.forwarded
    · exact satAdd32_le_satAdd32 h.forwarded (invalidAus_le_length _)

/-- What every step's operations keep of telemetry, with the header state beside it (R32, R284). -/
theorem telemetryInv_closed : StepClosed fun s => HeaderInv Config.hw s ∧ TelemetryInv Config.hw s where
  fetched s rest accepted h := ⟨headerInv_closed.fetched s rest accepted h.1, h.2.congr rfl rfl rfl rfl⟩
  event e s htag h := ⟨headerInv_closed.event e s htag h.1, h.2.congr rfl rfl rfl rfl⟩
  commandError op code s h := ⟨headerInv_closed.commandError op code s h.1, h.2.congr rfl rfl rfl rfl⟩
  config b s h := by
    refine ⟨headerInv_closed.config b s h.1, ?_⟩
    rcases config_cases Config.hw b s with heq | heq | ⟨-, heq⟩ <;> rw [heq]
    · exact .of_reset rfl rfl rfl
    · exact h.2
    · exact .of_reset rfl rfl rfl
  reset s h := ⟨headerInv_closed.reset s h.1, .of_reset rfl rfl rfl⟩
  addFrame frame s h := by
    refine ⟨headerInv_closed.addFrame frame s h.1, ?_⟩
    exact addFrame_rule (fun u hu => hu.congr (by simp) (by simp) (by simp) (by simp))
      (fun _ => h.2.congr rfl rfl rfl rfl) (fun _ _ _ => h.2.joined frame)
      fun _ _ _ => (h.2.joined frame).superframe (h.1.joined frame)

/-- Settles O27: only the session resets and the pipeline's report write telemetry; the header invariant bounds the pair that
a superframe adds. -/
theorem stepKeepsTelemetryInv : Obligations.StepKeepsTelemetryInv :=
  fun _ _ hheader h hstep => (telemetryInv_closed.step ⟨hheader, h⟩ hstep).2

end Sys2Proof.Machine

/-! SUPPORT. The PAD invariant (R33, R34, R243). The rule of `PadClosed` allows any event and any buffer; here each operation of
the PAD processor appears with the arguments that a frame can give it. -/

namespace Sys2Proof.Machine

/-- What the PAD of a frame does to a state, operation by operation, with the bytes and lengths that can occur: a property that
all of it keeps is kept by the PAD of every frame. -/
structure PadStepClosed (p : Params) (P : State → Prop) : Prop where
  short : ∀ xpad ci s, P s → P (shortXpad xpad ci s)
  openGroup : ∀ s, P s → P (setGroup true [] s)
  byte : ∀ b (s : State), s.dgActive = true → P s → P (feedByte p b s)
  subfield : ∀ app bytes s, bytes.length < 64 → P s → P (emit (xpadSubfieldEvent app bytes) s)
  lengthError : ∀ needed avail s, P s → P (padLengthError needed avail s)
  prev : ∀ ci s, P s → P (setXpadPrev (ciEntry ci).1 (ciEntry ci).2 s)
  contApp : ∀ app (s : State), P s → P { s with xpadPrevApp := app }

/-- A contents-indicator list holds declared sub-fields (R108, R236). -/
theorem mem_ciList {max : Nat} {xpad : List Byte} {sub : Nat × BitVec 5} (h : sub ∈ (ciList max xpad).1) :
    ∃ ci, sub = ciEntry ci := by
  induction xpad generalizing max with
  | nil => cases max <;> cases h
  | cons ci rest ih =>
    cases max with
    | zero => cases h
    | succ max =>
      rw [ciList] at h
      split at h
      · cases h
      · rcases List.mem_cons.1 h with rfl | htail
        · exact ⟨ci, rfl⟩
        · exact ih htail

/-- The declared sub-field lengths (R108). -/
theorem ciEntry_len_mem (ci : Byte) : (ciEntry ci).1 ∈ [4, 6, 8, 12, 16, 24, 32, 48] := by
  have hall : ∀ c : Byte, (ciEntry c).1 ∈ [4, 6, 8, 12, 16, 24, 32, 48] := by decide +kernel
  exact hall ci

theorem ciEntry_len_lt (ci : Byte) : (ciEntry ci).1 < 64 := by
  have hmem := ciEntry_len_mem ci
  simp only [List.mem_cons, List.not_mem_nil, or_false] at hmem
  omega

section
variable {p : Params} {P : State → Prop} (h : PadStepClosed p P)
include h

theorem PadStepClosed.feed (bytes : List Byte) {s : State} (hs : P s) : P (feed p bytes s) := by
  induction bytes generalizing s with
  | nil => exact hs
  | cons b bytes ih =>
    rw [feed_cons]
    split
    · exact ih (h.byte b s ‹_› hs)
    · exact hs

theorem PadStepClosed.dispatch (app : BitVec 5) {bytes : List Byte} (hlen : bytes.length < 64) {s : State} (hs : P s) :
    P (dispatchSubfield p app bytes s) := by
  unfold dispatchSubfield
  split_ifs
  · exact h.feed bytes (h.openGroup s hs)
  · exact h.feed bytes hs
  · exact hs
  · exact h.subfield app bytes s hlen hs

theorem PadStepClosed.walk (xpad : List Byte) {subs : List (Nat × BitVec 5)} (hsubs : ∀ sub ∈ subs, ∃ ci, sub = ciEntry ci)
    (pos : Nat) {s : State} (hs : P s) : P (walkSubfields p xpad subs pos s) := by
  induction subs generalizing pos s with
  | nil => exact hs
  | cons sub subs ih =>
    obtain ⟨ci, rfl⟩ := hsubs sub List.mem_cons_self
    unfold walkSubfields
    split
    · exact h.lengthError _ _ s hs
    · refine ih (fun sub hsub => hsubs sub (List.mem_cons_of_mem _ hsub)) _ (h.prev ci _ (h.dispatch _ ?_ hs))
      exact (List.length_take_le _ _).trans_lt (ciEntry_len_lt ci)

theorem PadStepClosed.continued (xpad : List Byte) {s : State} (hs : P s) : P (varXpadCont p xpad s) := by
  unfold varXpadCont
  dsimp only
  split_ifs
  · exact hs
  · exact h.lengthError _ _ s hs
  · exact h.contApp _ _ (h.dispatch _ ((List.length_take_le _ _).trans_lt s.xpadPrevLen.isLt) hs)

theorem PadStepClosed.frame (frame : List Byte) {s : State} (hs : P s) : P (processPad p frame s) := by
  unfold processPad
  dsimp only
  split_ifs
  · exact hs
  · exact h.short _ _ s hs
  · exact h.walk _ (fun _ => mem_ciList) _ hs
  · exact h.continued _ hs
  · exact hs

end

theorem PadInv.congr {s t : State} (h : PadInv s) (hlen : t.xpadPrevLen = s.xpadPrevLen) (hactive : t.dgActive = s.dgActive)
    (hbuf : t.dgBuf = s.dgBuf) : PadInv t where
  prevLen := hlen ▸ h.prevLen
  closed := by rw [hactive, hbuf]; exact h.closed
  partialGroup := hbuf ▸ h.partialGroup
  bound := hbuf ▸ h.bound

/-- With no byte collected the invariant is about `xpad_prev_len` alone. -/
theorem PadInv.of_empty {s : State} (hlen : s.xpadPrevLen.toNat ∈ [0, 4, 6, 8, 12, 16, 24, 32, 48]) (hbuf : s.dgBuf = []) :
    PadInv s where
  prevLen := hlen
  closed := fun _ => hbuf
  partialGroup := by rw [hbuf]; intro h; simp at h
  bound := by rw [hbuf]; decide

theorem PadInv.of_reset {s : State} (hlen : s.xpadPrevLen = 0) (hbuf : s.dgBuf = []) : PadInv s :=
  .of_empty (by rw [hlen]; decide) hbuf

/-- The first two bytes of a buffer of at least two stay with a byte more. -/
theorem byteAt_append_one {buf : List Byte} {i : Nat} (b : Byte) (h : i < buf.length) :
    byteAt (buf ++ [b]) i = byteAt buf i := byteAt_append_left buf [b] i h

theorem PadInv.feedByte {s : State} (h : PadInv s) (hactive : s.dgActive = true) (p : Params) (b : Byte) :
    PadInv (feedByte p b s) := by
  rcases feedByte_cases p b s with ⟨hwhole, heq⟩ | ⟨hpartial, heq⟩ <;> rw [heq]
  · have hempty : PadInv (setGroup false [] s) := .of_empty h.prevLen rfl
    rcases groupDone_cases p (setGroup false [] s) hwhole with heq | heq | ⟨info, heq, -⟩ <;> rw [heq]
    · exact hempty.congr rfl rfl rfl
    · exact hempty
    · rw [labelSegment_eq]
      split <;> exact hempty.congr rfl rfl rfl
  · have hlen : (s.dgBuf ++ [b]).length = s.dgBuf.length + 1 := by simp
    have hbelow : 2 ≤ (s.dgBuf ++ [b]).length →
        (s.dgBuf ++ [b]).length < expectedLen (byteAt (s.dgBuf ++ [b]) 0) (byteAt (s.dgBuf ++ [b]) 1) := by
      intro htwo
      have hne := mt (groupComplete_iff _).2 (Bool.eq_false_iff.1 hpartial)
      have hne : (s.dgBuf ++ [b]).length ≠ expectedLen (byteAt (s.dgBuf ++ [b]) 0) (byteAt (s.dgBuf ++ [b]) 1) :=
        fun heq => hne ⟨htwo, heq⟩
      by_cases hone : 2 ≤ s.dgBuf.length
      · rw [byteAt_append_one b (by omega), byteAt_append_one b (by omega)] at hne ⊢
        have := h.partialGroup hone
        omega
      · have := (expectedLen_bounds (byteAt (s.dgBuf ++ [b]) 0) (byteAt (s.dgBuf ++ [b]) 1)).1
        omega
    have hbound := (expectedLen_bounds (byteAt (s.dgBuf ++ [b]) 0) (byteAt (s.dgBuf ++ [b]) 1)).2
    constructor
    case prevLen => exact h.prevLen
    case closed => intro hclosed; exact absurd (hactive.symm.trans hclosed) (by decide)
    case partialGroup => exact hbelow
    case bound =>
      rw [setGroup_dgBuf]
      by_cases htwo : 2 ≤ (s.dgBuf ++ [b]).length
      · exact (hbelow htwo).trans_le hbound
      · omega

/-- What the PAD of a frame keeps of the PAD state (R33, R34). -/
theorem padInv_padClosed (p : Params) : PadStepClosed p PadInv where
  short xpad ci s h := by unfold shortXpad; split <;> exact h.congr rfl rfl rfl
  openGroup s h := .of_empty h.prevLen rfl
  byte b s hactive h := h.feedByte hactive p b
  subfield app bytes s _ h := h.congr rfl rfl rfl
  lengthError needed avail s h := h.congr rfl rfl rfl
  prev ci s h := by
    have hlen : (BitVec.ofNat 6 (ciEntry ci).1).toNat = (ciEntry ci).1 := Nat.mod_eq_of_lt (ciEntry_len_lt ci)
    exact
      { prevLen := by
          rw [setXpadPrev_xpadPrevLen, hlen]
          exact List.mem_cons_of_mem _ (ciEntry_len_mem ci)
        closed := h.closed
        partialGroup := h.partialGroup
        bound := h.bound }
  contApp app s h := h.congr rfl rfl rfl

/-- What every step's operations keep of the PAD state (R33, R34, R243). -/
theorem padInv_closed : StepClosed PadInv where
  fetched s _ _ h := h.congr rfl rfl rfl
  event e s _ h := h.congr rfl rfl rfl
  commandError op code s h := h.congr rfl rfl rfl
  config b s h := by
    rcases config_cases Config.hw b s with heq | heq | ⟨-, heq⟩ <;> rw [heq]
    · exact .of_reset rfl rfl
    · exact h
    · exact .of_reset rfl rfl
  reset s h := .of_reset rfl rfl
  addFrame frame s h := by
    have hjoined : PadInv (joined Config.hw frame s) := ((padInv_padClosed Config.hw).frame frame h).congr rfl rfl rfl
    refine addFrame_rule (fun u hu => hu.congr (by simp) (by simp) (by simp)) (fun _ => h.congr rfl rfl rfl)
      (fun _ _ _ => hjoined) fun _ _ _ => ?_
    obtain ⟨-, -, hlen, -, -, hactive, hbuf, -⟩ := superframe_keeps Config.hw (joined Config.hw frame s)
    exact hjoined.congr hlen hactive hbuf

/-- Settles O28: a byte that does not complete the group leaves it shorter than its first two bytes declare; the session
resets empty the buffer. -/
theorem stepKeepsPadInv : Obligations.StepKeepsPadInv :=
  fun _ _ h hstep => padInv_closed.step h hstep

end Sys2Proof.Machine

/-! SUPPORT. The label invariant (R35, R36, R264, R268): the slots after a segment is stored, the length of a complete label,
and the statement. -/

namespace Sys2Proof.Machine

/-- A slot holds 1 to 16 bytes when its presence bit is set, and none otherwise (R35, R260). -/
structure SlotOk (x : Slot) : Prop where
  present : x.present = true → 1 ≤ x.data.length ∧ x.data.length ≤ 16
  absent : x.present = false → x.data = []

theorem slotOk_empty : SlotOk Slot.empty where
  present := by intro h; cases h
  absent := fun _ => rfl

/-- The slots of the assembly that a segment joins: those of the assembly in progress, or empty ones (R261). -/
theorem LabelAsm.base_slot (g : SegmentInfo) (a : LabelAsm) (k : Fin 8) :
    (a.base g).slots[k] = a.slots[k] ∨ (a.base g).slots[k] = Slot.empty := by
  unfold LabelAsm.base
  split
  · exact .inr (Vector.getElem_replicate _)
  · exact .inl rfl

theorem slotOk_store {g : SegmentInfo} {a : LabelAsm} (hone : 1 ≤ g.payload.length) (hmax : g.payload.length ≤ 16)
    (h : ∀ k : Fin 8, SlotOk a.slots[k]) (k : Fin 8) : SlotOk (a.store g).slots[k] := by
  rw [LabelAsm.store_slot]
  split
  · exact ⟨fun _ => ⟨hone, hmax⟩, by intro hp; cases hp⟩
  · rcases LabelAsm.base_slot g a k with heq | heq <;> rw [heq]
    · exact h k
    · exact slotOk_empty

theorem LabelAsm.expected_length (a : LabelAsm) : a.expected.length = a.last.toNat + 1 := by
  have := a.last.isLt
  simp [LabelAsm.expected, Config.dlModulus]
  omega

theorem LabelAsm.mem_expected {a : LabelAsm} {x : Slot} (h : x ∈ a.expected) : ∃ k : Fin 8, a.slots[k] = x := by
  obtain ⟨k, hk, rfl⟩ := List.getElem_of_mem (List.mem_of_mem_take h)
  exact ⟨⟨k, by simpa using hk⟩, by simp⟩

/-- A complete label has 1 to 128 bytes: 1 to 8 slots of 1 to 16 bytes (R36, R264). -/
theorem LabelAsm.text_length {a : LabelAsm} (hcomplete : a.complete = true) (h : ∀ k : Fin 8, SlotOk a.slots[k]) :
    1 ≤ a.text.length ∧ a.text.length ≤ 128 := by
  have hpresent := List.all_eq_true.1 (Bool.and_eq_true_iff.1 hcomplete).2
  have hslot (n : Nat) (hn : n ∈ a.expected.map (·.data.length)) : 1 ≤ n ∧ n ≤ 16 := by
    obtain ⟨x, hx, rfl⟩ := List.mem_map.1 hn
    obtain ⟨k, rfl⟩ := LabelAsm.mem_expected hx
    exact (h k).present (hpresent _ hx)
  have hlen := a.expected_length
  have hlast := a.last.isLt
  have hlow := List.card_nsmul_le_sum _ 1 fun n hn => (hslot n hn).1
  have hhigh := List.sum_le_card_nsmul _ 16 fun n hn => (hslot n hn).2
  rw [LabelAsm.text, List.length_flatMap]
  simp only [List.length_map, smul_eq_mul, hlen] at hlow hhigh
  omega

theorem LabelInv.congr {s t : State} (h : LabelInv s) (hasm : t.asm = s.asm) (hlabel : t.label = s.label) : LabelInv t where
  inactive := by rw [hasm]; exact h.inactive
  present := by rw [hasm]; exact h.present
  absent := by rw [hasm]; exact h.absent
  partialLabel := by rw [hasm]; exact h.partialLabel
  noLabel := by rw [hlabel]; exact h.noLabel
  labelLen := by rw [hlabel]; exact h.labelLen

theorem LabelInv.slotOk {s : State} (h : LabelInv s) (k : Fin 8) : SlotOk s.asm.slots[k] := ⟨h.present k, h.absent k⟩

/-- The invariant of a state with an idle assembly is about the completed label alone. -/
theorem LabelInv.of_idle {s : State} (hasm : s.asm = { LabelAsm.cleared with toggle := s.asm.toggle })
    (hno : s.label.valid = false → s.label = LabelReg.cleared)
    (hlen : s.label.valid = true → 1 ≤ s.label.text.length ∧ s.label.text.length ≤ 128) : LabelInv s := by
  have hslot (k : Fin 8) : s.asm.slots[k] = Slot.empty := by
    rw [hasm]
    exact Vector.getElem_replicate _
  constructor
  case inactive => exact fun _ => hasm
  case present => intro k hk; rw [hslot k] at hk; cases hk
  case absent => intro k _; rw [hslot k]; rfl
  case partialLabel => rw [hasm]; rfl
  case noLabel => exact hno
  case labelLen => exact hlen

theorem LabelInv.of_reset {s : State} (hasm : s.asm = LabelAsm.cleared) (hlabel : s.label = LabelReg.cleared) :
    LabelInv s := by
  refine .of_idle (by rw [hasm]) (fun _ => hlabel) ?_
  rw [hlabel]
  intro h
  cases h

theorem LabelInv.labelSegment {s : State} (h : LabelInv s) {g : SegmentInfo} (hone : 1 ≤ g.payload.length)
    (hmax : g.payload.length ≤ 16) : LabelInv (labelSegment g s) := by
  have hslots := slotOk_store hone hmax h.slotOk
  rw [labelSegment_eq]
  split
  next hcomplete =>
    exact .of_idle rfl (by intro hv; cases hv) fun _ => LabelAsm.text_length hcomplete hslots
  next hpartial =>
    exact
      { inactive := by intro hidle; cases hidle
        present := fun k => (hslots k).present
        absent := fun k => (hslots k).absent
        partialLabel := Bool.eq_false_iff.2 hpartial
        noLabel := h.noLabel
        labelLen := h.labelLen }

/-- What the PAD of a frame keeps of the labels (R35, R36). -/
theorem labelInv_padClosed : PadClosed LabelInv where
  event _ _ _ h := h.congr rfl rfl
  shortApp _ _ h := h.congr rfl rfl
  group _ _ _ h := h.congr rfl rfl
  crcError _ h := h.congr rfl rfl
  segment _ _ hone hmax h := h.labelSegment hone hmax
  lengthError _ _ _ h := h.congr rfl rfl
  prevApp _ _ _ h := h.congr rfl rfl
  contApp _ _ h := h.congr rfl rfl

theorem LabelInv.superframe {s : State} (h : LabelInv s) (p : Params) : LabelInv (superframe p s) := by
  obtain ⟨-, -, -, -, -, -, -, hasm, hlabel, -⟩ := superframe_keeps p s
  exact h.congr hasm hlabel

theorem LabelInv.joined {s : State} (h : LabelInv s) (p : Params) (frame : List Byte) : LabelInv (joined p frame s) :=
  (labelInv_padClosed.frame p frame h).congr rfl rfl

/-- What every step's operations keep of the labels (R35, R36, R268). -/
theorem labelInv_closed : StepClosed LabelInv where
  fetched s _ _ h := h.congr rfl rfl
  event e s _ h := h.congr rfl rfl
  commandError op code s h := h.congr rfl rfl
  config b s h := by
    rcases config_cases Config.hw b s with heq | heq | ⟨-, heq⟩ <;> rw [heq]
    · exact .of_reset rfl rfl
    · exact h
    · exact .of_reset rfl rfl
  reset s h := .of_reset rfl rfl
  addFrame frame s h :=
    addFrame_rule (fun u hu => hu.congr (by simp) (by simp)) (fun _ => h.congr rfl rfl) (fun _ _ _ => h.joined _ frame)
      fun _ _ _ => (h.joined _ frame).superframe _

/-- Settles O29: a segment is stored in its slot, and an assembly that becomes complete is published and emptied. -/
theorem stepKeepsLabelInv : Obligations.StepKeepsLabelInv :=
  fun _ _ h hstep => labelInv_closed.step h hstep

end Sys2Proof.Machine

/-! SUPPORT. The event stream (R90 to R98): a record is read back from its bytes, every operation emits records of known tags
and bounded bodies, and the two statements. -/

namespace Sys2Proof.Machine

/-- A record whose length two bytes hold is read back from its bytes (R90). -/
theorem parseEvent_bytes {e : Event} (h : EventOk e) (rest : List Byte) : parseEvent (e.bytes ++ rest) = some (e, rest) := by
  have hlen : (BitVec.ofNat 16 e.body.length).toNat = e.body.length := Nat.mod_eq_of_lt h.2
  have hbytes : e.bytes ++ rest = e.tag :: (BitVec.ofNat 16 e.body.length).extractLsb' 8 8 ::
      (BitVec.ofNat 16 e.body.length).extractLsb' 0 8 :: (e.body ++ rest) := by
    simp [Event.bytes, be16Nat, be16Bytes]
  rw [hbytes, parseEvent, be16_be16Bytes, hlen, if_pos (by simp)]
  simp

theorem parseEvents_flatMap {es : List Event} (h : ∀ e ∈ es, EventOk e) (tail : List Byte) :
    parseEvents es.length (es.flatMap Event.bytes ++ tail) = some (es, tail) := by
  induction es with
  | nil => rfl
  | cons e es ih =>
    obtain ⟨he, hes⟩ := List.forall_mem_cons.1 h
    rw [List.length_cons, List.flatMap_cons, List.append_assoc, parseEvents, parseEvent_bytes he]
    simp [ih hes]

/-- Settles O31: by induction on the records, each read back with the rest of the stream behind it. -/
theorem eventStreamReadsBack : Obligations.EventStreamReadsBack := fun _ tail h => parseEvents_flatMap h tail

/-- Every record emitted so far is one that the block may emit, and the labels keep their bounds. -/
structure RecordsOk (s : State) : Prop where
  label : LabelInv s
  events : ∀ e ∈ s.output, EventOk e

theorem RecordsOk.congr {s t : State} (h : RecordsOk s) (hasm : t.asm = s.asm) (hlabel : t.label = s.label)
    (hout : t.output = s.output) : RecordsOk t where
  label := h.label.congr hasm hlabel
  events := hout ▸ h.events

theorem RecordsOk.append {s t : State} (h : RecordsOk s) (hlabel : LabelInv t) {es : List Event}
    (hout : t.output = s.output ++ es) (hes : ∀ e ∈ es, EventOk e) : RecordsOk t where
  label := hlabel
  events := by rw [hout]; exact List.forall_mem_append.2 ⟨h.events, hes⟩

theorem RecordsOk.emit {s : State} (h : RecordsOk s) {e : Event} (he : EventOk e) : RecordsOk (emit e s) :=
  h.append (h.label.congr rfl rfl) rfl (List.forall_mem_singleton.2 he)

/-! Each kind of record has a tag of R91, and a body that two bytes can count if what it carries is short. -/

theorem auEvent_ok {index : Nat} {valid : Bool} {hdr : Byte} {payload : List Byte} (h : payload.length < 65533) :
    EventOk (auEvent index valid hdr payload) := by simp [EventOk, auEvent]; omega

theorem labelEvent_ok {charset : BitVec 4} {text : List Byte} (h : text.length < 65534) :
    EventOk (labelEvent charset text) := by simp [EventOk, labelEvent]; omega

theorem labelReadEvent_ok {l : LabelReg} (h : l.text.length < 65533) : EventOk (labelReadEvent l) := by
  simp [EventOk, labelReadEvent]; omega

theorem shortXpadEvent_ok {app : BitVec 5} {ci : Bool} {data : List Byte} (h : data.length < 65534) :
    EventOk (shortXpadEvent app ci data) := by simp [EventOk, shortXpadEvent]; omega

theorem xpadSubfieldEvent_ok {app : BitVec 5} {data : List Byte} (h : data.length < 65535) :
    EventOk (xpadSubfieldEvent app data) := by simp [EventOk, xpadSubfieldEvent]; omega

theorem successRateEvent_ok (rate : Byte) : EventOk (successRateEvent rate) := by simp [EventOk, successRateEvent]

theorem countersEvent_ok (c : Counters) : EventOk (countersEvent c) := by simp [EventOk, countersEvent]

theorem padLengthErrorEvent_ok (needed avail : Nat) : EventOk (padLengthErrorEvent needed avail) := by
  simp [EventOk, padLengthErrorEvent]

theorem regValueEvent_ok (idx : Byte) (value : Word) : EventOk (regValueEvent idx value) := by simp [EventOk, regValueEvent]

theorem snapshotEvent_ok (s : State) : EventOk (snapshotEvent (snapshotRegs s)) := by simp [EventOk, snapshotEvent, snapshotRegs]

theorem cmdErrorEvent_ok (opcode code : Byte) : EventOk (cmdErrorEvent opcode code) := by simp [EventOk, cmdErrorEvent]

theorem configErrorEvent_ok (bitrate : Half) : EventOk (configErrorEvent bitrate) := by simp [EventOk, configErrorEvent]

theorem framingErrorEvent_ok (len expected : Nat) : EventOk (framingErrorEvent len expected) := by simp [EventOk, framingErrorEvent]

theorem superframeStatusEvent_ok (outcome : Byte) (corr nunc nfwd ninv : Nat) (sync failRun : Byte) :
    EventOk (superframeStatusEvent outcome corr nunc nfwd ninv sync failRun) := by simp [EventOk, superframeStatusEvent]

theorem RecordsOk.commandError {s : State} (h : RecordsOk s) (op code : Byte) : RecordsOk (commandError op code s) :=
  RecordsOk.emit (s := raise (.command op code) s) (h.congr rfl rfl rfl) (cmdErrorEvent_ok op code)

theorem RecordsOk.labelSegment {s : State} (h : RecordsOk s) {g : SegmentInfo} (hone : 1 ≤ g.payload.length)
    (hmax : g.payload.length ≤ 16) : RecordsOk (labelSegment g s) := by
  have hlabel := h.label.labelSegment hone hmax
  rw [labelSegment_eq] at hlabel ⊢
  split_ifs at hlabel ⊢ with hcomplete
  · have htext : (s.asm.store g).text.length ≤ 128 := (hlabel.labelLen rfl).2
    exact h.append hlabel rfl (List.forall_mem_singleton.2 (labelEvent_ok (by omega)))
  · exact h.append hlabel (es := []) (List.append_nil _).symm (by simp)

/-- What the PAD of a frame keeps of the records (R95). -/
theorem recordsOk_padClosed (p : Params) : PadStepClosed p RecordsOk where
  short xpad ci s h := by
    unfold shortXpad
    have hshort (ci : Bool) (app : BitVec 5) : EventOk (shortXpadEvent app ci (Tables.shortXpadData ci xpad)) := by
      refine shortXpadEvent_ok ?_
      simp only [Tables.shortXpadData, List.length_drop, List.length_take, Tables.shortXpadLen_eq]
      omega
    split
    · exact RecordsOk.emit (s := { s with shortPrevApp := Tables.ciApp (Tables.shortXpadCi xpad) }) (h.congr rfl rfl rfl)
        (hshort true _)
    · exact h.emit (hshort _ _)
  openGroup s h := h.congr rfl rfl rfl
  byte b s _ h := by
    rcases feedByte_cases p b s with ⟨hwhole, heq⟩ | ⟨-, heq⟩ <;> rw [heq]
    · have hgroup : RecordsOk (setGroup false [] s) := h.congr rfl rfl rfl
      rcases groupDone_cases p (setGroup false [] s) hwhole with heq | heq | ⟨info, heq, hone, hmax⟩ <;> rw [heq]
      · exact hgroup.congr rfl rfl rfl
      · exact hgroup
      · exact hgroup.labelSegment hone hmax
    · exact h.congr rfl rfl rfl
  subfield app bytes s hlen h := h.emit (xpadSubfieldEvent_ok (by omega))
  lengthError needed avail s h :=
    (RecordsOk.emit (s := raise (.padLength needed avail) s) (h.congr rfl rfl rfl)
      (padLengthErrorEvent_ok needed avail)).congr rfl rfl rfl
  prev ci s h := h.congr rfl rfl rfl
  contApp app s h := h.congr rfl rfl rfl

@[simp] theorem rsDecode_data_length (size : Nat) (window : List Byte) : (rsDecode size window).data.length = 110 * size := by
  simp [rsDecode]

/-- An access unit's payload lies in the data region (R103, R216). -/
theorem auRecord_payload_length_le (size : Nat) (data : List Byte) (unc : List Bool) (h : HeaderConfig) (i : Nat) :
    (auRecord size data unc h i).payload.length ≤ data.length := by
  simp only [auRecord, Tables.crcCovered, auBytes, List.length_take, List.length_drop]
  omega

theorem sfAus_payload_length_le {p : Params} {s : State} {a : AuRecord} (h : a ∈ sfAus p s) :
    a.payload.length ≤ 110 * s.subchannel := by
  rcases hu : (sfDecision p s).use with _ | c
  · rw [sfAus_none hu] at h
    cases h
  · simp only [sfAus, hu, auRecords, List.mem_map] at h
    obtain ⟨i, -, rfl⟩ := h
    rw [← rsDecode_data_length s.subchannel s.window]
    exact auRecord_payload_length_le _ _ _ _ _

theorem RecordsOk.superframe {s : State} (h : RecordsOk s) {p : Params} (hsize : s.subchannel ≤ 37) :
    RecordsOk (superframe p s) := by
  refine h.append (h.label.superframe p) ((superframe_output p s).trans (List.append_assoc ..))
    (List.forall_mem_append.2 ⟨?_, ?_⟩)
  · split
    next c hu =>
      intro e he
      obtain ⟨a, ha, rfl⟩ := List.mem_map.1 he
      have hlen := sfAus_payload_length_le ha
      exact auEvent_ok (by omega)
    next => simp
  · simp only [List.forall_mem_cons, List.not_mem_nil, false_imp_iff, implies_true, and_true]
    exact ⟨superframeStatusEvent_ok _ _ _ _ _ _ _, successRateEvent_ok _⟩

theorem RecordsOk.addFrame {s : State} (h : RecordsOk s) {p : Params} (hsize : s.subchannel ≤ 37) (frame : List Byte) :
    RecordsOk (addFrame p frame s) := by
  have hjoined : RecordsOk (joined p frame s) := ((recordsOk_padClosed p).frame frame h).congr rfl rfl rfl
  refine addFrame_rule (fun u hu => ?_) (fun _ => ?_) (fun _ _ _ => hjoined) fun _ _ _ => hjoined.superframe ?_
  · unfold emitCountersIfChanged
    split
    · exact hu
    · exact hu.emit (countersEvent_ok _)
  · exact (RecordsOk.emit (s := raise (.framing frame.length) s) (h.congr rfl rfl rfl)
      (framingErrorEvent_ok _ _)).congr rfl rfl rfl
  · have hcfg : (joined p frame s).cfgBitrate = s.cfgBitrate := (processPad_keeps p frame s).cfgBitrate
    rwa [subchannel_congr hcfg]

theorem RecordsOk.readReg {s : State} (h : RecordsOk s) (p : Params) (idx : Byte) : RecordsOk (readReg p idx s) := by
  unfold Machine.readReg
  split
  · exact h.emit (regValueEvent_ok idx _)
  · exact h.commandError _ _

theorem RecordsOk.snapshot {s : State} (h : RecordsOk s) : RecordsOk (snapshot s) := h.emit (snapshotEvent_ok s)

theorem RecordsOk.readLabel {s : State} (h : RecordsOk s) : RecordsOk (readLabel s) := by
  refine h.emit (labelReadEvent_ok ?_)
  have htext : s.label.text.length ≤ 128 := by
    rcases hvalid : s.label.valid
    · rw [h.label.noLabel hvalid]
      exact Nat.zero_le _
    · exact (h.label.labelLen hvalid).2
  omega

theorem RecordsOk.config {s : State} (h : RecordsOk s) (p : Params) (b : Half) : RecordsOk (config p b s) := by
  rcases config_cases p b s with heq | heq | ⟨-, heq⟩ <;> rw [heq]
  · exact RecordsOk.append (s := raise (.config b) s) (h.congr rfl rfl rfl) (.of_reset rfl rfl) rfl
      (List.forall_mem_singleton.2 (configErrorEvent_ok b))
  · exact h
  · exact h.append (.of_reset rfl rfl) (es := []) (List.append_nil _).symm (by simp)

theorem RecordsOk.checkRsv {s : State} (h : RecordsOk s) {command : State → State} (hc : RecordsOk (command s))
    (op rsv : Byte) : RecordsOk (checkRsv op rsv command s) := by
  unfold Machine.checkRsv
  split
  · exact hc
  · exact h.commandError _ _

theorem RecordsOk.exec {s t : State} (h : RecordsOk s) (hsize : s.subchannel ≤ 37) {i : Instr} (he : exec i s = .next t) :
    RecordsOk t := by
  cases i with
  | nop rsv arg => cases he; exact h.checkRsv h _ _
  | config rsv b => cases he; exact h.checkRsv (h.config _ b) _ _
  | channelReset rsv arg =>
    cases he
    exact h.checkRsv (h.append (.of_reset rfl rfl) (es := []) (List.append_nil _).symm (by simp)) _ _
  | addFrame rsv payload => cases he; exact h.checkRsv (h.addFrame hsize payload) _ _
  | readReg rsv arg => cases he; exact h.checkRsv (h.readReg _ _) _ _
  | snapshot rsv arg => cases he; exact h.checkRsv h.snapshot _ _
  | readLabel rsv arg => cases he; exact h.checkRsv h.readLabel _ _
  | reserved07 | reserved08 | reserved10 | reserved20 | reserved40 | reserved80 => cases he; exact h.commandError _ _

/-- Settles O30: a label has at most 128 bytes by its invariant, an access unit lies in at most 110 × 24 bytes by the legal
configuration, and every other body has a fixed or small length. -/
theorem stepEmitsWellFormedRecords : Obligations.StepEmitsWellFormedRecords := by
  intro s t hconfig hlabel hevents hstep
  obtain ⟨i, rest, -, -, hexec⟩ := step_next_cases hstep
  have hsize : s.subchannel ≤ 37 := hconfig.subchannel_le.trans (by decide)
  have hfetched : RecordsOk (s.afterFetch rest) := RecordsOk.congr (s := s) ⟨hlabel, hevents⟩ rfl rfl rfl
  exact (hfetched.exec hsize hexec).events

end Sys2Proof.Machine

/-! SUPPORT. ADD_FRAME (R150 to R168, R286): the report of the counters, a dropped frame, a frame that joins the window, the
events of a frame, and the statements on them. -/

namespace Sys2Proof.Machine

/-! The report of the counters. -/

theorem reportedCounters_eq_iff (c d : Counters) :
    reportedCounters c = reportedCounters d ↔ c.frameErr = d.frameErr ∧ c.auErr = d.auErr ∧ c.rsCorr = d.rsCorr ∧
      c.rsUncorr = d.rsUncorr ∧ c.padLenErr = d.padLenErr := by
  simp [reportedCounters]

theorem emitCountersIfChanged_output (c0 : Counters) (s : State) :
    (emitCountersIfChanged c0 s).output = s.output ++
      if s.counters.frameErr = c0.frameErr ∧ s.counters.auErr = c0.auErr ∧ s.counters.rsCorr = c0.rsCorr ∧
        s.counters.rsUncorr = c0.rsUncorr ∧ s.counters.padLenErr = c0.padLenErr then [] else [countersEvent s.counters] := by
  simp only [emitCountersIfChanged, reportedCounters_eq_iff]
  split
  · exact (List.append_nil _).symm
  · rfl

@[simp] theorem emitCountersIfChanged_blockOnly (c0 : Counters) (s : State) :
    (emitCountersIfChanged c0 s).blockOnly = s.blockOnly := by
  unfold emitCountersIfChanged
  split <;> rfl

/-! A frame that is dropped. -/

theorem addFrame_dropped {p : Params} {frame : List Byte} {s : State}
    (h : ¬(s.cfgBitrate ≠ 0 ∧ frame.length = s.frameLen)) :
    addFrame p frame s = emitCountersIfChanged s.counters (framingError frame.length s) := by
  rw [addFrame, if_neg fun ha => h ((frameAccepted_iff _ s).1 ha)]

theorem expectedFrameLen_eq (s : State) :
    expectedFrameLen s = if s.cfgBitrate = 0 then 0 else 24 * (s.cfgBitrate.toNat / 8) := by
  by_cases h : s.cfgBitrate = 0 <;> simp [expectedFrameLen, State.configured, h, State.frameLen, State.subchannel]

/-- A counter stays where it is under an increment only at its largest value (R288). -/
theorem satAdd32_one_eq_iff (c : Word) : satAdd32 c 1 = c ↔ c = 0xFFFFFFFF := by
  have hlt := c.isLt
  rw [← BitVec.toNat_inj, ← BitVec.toNat_inj, toNat_satAdd32]
  simp
  omega

/-- Settles O32: the dropped frame writes FRAME_ERR alone, which the report of the counters compares. -/
theorem framingErrorEffect : Obligations.FramingErrorEffect := by
  intro frame s hbad
  refine congrArg Host.Outcome.next ?_
  change addFrame Config.hw frame s = _
  rw [addFrame_dropped hbad, emitCountersIfChanged]
  simp only [reportedCounters_eq_iff, framingError_counters, satAdd32_one_eq_iff, and_true]
  rw [← expectedFrameLen_eq]
  split
  · rw [List.append_nil]
    rfl
  · rfl

/-! A frame that is accepted. -/

theorem addFrame_joins {p : Params} {frame : List Byte} {s : State} (hcfg : s.cfgBitrate ≠ 0)
    (hlen : frame.length = s.frameLen) (hfill : s.frames.length ≠ 4) :
    addFrame p frame s = emitCountersIfChanged s.counters (joined p frame s) := by
  obtain ⟨u, heq, ⟨hbad, -⟩ | ⟨-, -, rfl⟩ | ⟨-, hfull, -⟩⟩ := addFrame_cases p frame s
  · exact absurd ⟨hcfg, hlen⟩ hbad
  · exact heq
  · exact absurd hfull hfill

theorem addFrame_completes {p : Params} {frame : List Byte} {s : State} (hcfg : s.cfgBitrate ≠ 0)
    (hlen : frame.length = s.frameLen) (hfill : s.frames.length = 4) :
    addFrame p frame s = emitCountersIfChanged s.counters (superframe p (joined p frame s)) := by
  obtain ⟨u, heq, ⟨hbad, -⟩ | ⟨-, hne, -⟩ | ⟨-, -, rfl⟩⟩ := addFrame_cases p frame s
  · exact absurd ⟨hcfg, hlen⟩ hbad
  · exact absurd hfill hne
  · exact heq

/-- The bytes already in the window stay, and the new ones stand behind them (R61, R153). -/
theorem bufRead_append {s t : State} {frame : List Byte} (hlen : t.frameLen = s.frameLen)
    (hframes : t.frames = s.frames ++ [frame]) (hpos : 0 < s.frameLen) :
    (∀ k, k < s.frames.length * s.frameLen → t.bufRead k = s.bufRead k) ∧
      ∀ k, k < s.frameLen → t.bufRead (s.frames.length * s.frameLen + k) = frame[k]? := by
  constructor
  · intro k hk
    have hframe : k / s.frameLen < s.frames.length := Nat.div_lt_of_lt_mul (by rwa [Nat.mul_comm])
    rw [State.bufRead, State.bufRead, hlen, hframes, List.getElem?_append_left hframe]
  · intro k hk
    have hframe : (s.frames.length * s.frameLen + k) / s.frameLen = s.frames.length := by
      rw [Nat.add_comm, Nat.add_mul_div_right _ _ hpos, Nat.div_eq_of_lt hk, Nat.zero_add]
    have hbyte : (s.frames.length * s.frameLen + k) % s.frameLen = k := by
      rw [Nat.add_comm, Nat.add_mul_mod_self_right, Nat.mod_eq_of_lt hk]
    rw [State.bufRead, hlen, hframes, hframe, hbyte, List.getElem?_append_right le_rfl, Nat.sub_self]
    rfl

/-- The PAD of a frame counts in PAD_LEN_ERR and DL_CRC_ERR alone (R152). -/
theorem PadKeeps.counters {s t : State} (h : PadKeeps s t) :
    t.counters = { s.counters with padLenErr := t.counters.padLenErr, dlCrcErr := t.counters.dlCrcErr } := by
  dsimp only
  rw [← h.frameErr, ← h.auErr, ← h.rsCorr, ← h.rsUncorr, ← h.sfCount, ← h.auFwd]

/-- Settles O33: the window grows by the frame, and everything else is what the PAD keeps or makes of it. -/
theorem acceptedFrameJoinsWindow : Obligations.AcceptedFrameJoinsWindow := by
  intro frame s hcfg hlen hfill
  have hk := processPad_keeps Config.hw frame s
  have hframeLen : (emitCountersIfChanged s.counters (joined Config.hw frame s)).frameLen = s.frameLen :=
    frameLen_congr (by simpa [joined] using hk.cfgBitrate)
  have hframes : (emitCountersIfChanged s.counters (joined Config.hw frame s)).frames = s.frames ++ [frame] := by
    rw [emitCountersIfChanged_frames, joined_frames]
  refine ⟨_, congrArg Host.Outcome.next (addFrame_joins hcfg hlen hfill), ?_, hframes,
    fun hpos _ => bufRead_append hframeLen hframes hpos, ?_⟩
  · rw [emitCountersIfChanged_blockOnly]
    rfl
  · simp only [emitCountersIfChanged_cfgBitrate, emitCountersIfChanged_fatal, emitCountersIfChanged_syncState,
      emitCountersIfChanged_failRun, emitCountersIfChanged_lastGood, emitCountersIfChanged_nominalAus,
      emitCountersIfChanged_srHist, emitCountersIfChanged_successRate, emitCountersIfChanged_counters]
    exact ⟨hk.cfgBitrate, hk.fatal, hk.syncState, hk.failRun, hk.lastGood, hk.nominalAus, hk.srHist, hk.successRate,
      hk.counters⟩

theorem superframe_sfCount (p : Params) (s : State) :
    (superframe p s).counters.sfCount = satAdd32 s.counters.sfCount 1 := by
  rw [superframe_counters, sfApplied_counters]

/-- Settles O34: the pipeline runs on the window with the frame, and leaves the PAD and label state as the PAD made it. -/
theorem fifthFrameRunsThePipeline : Obligations.FifthFrameRunsThePipeline := by
  intro frame s hcfg hlen hfill
  have hk := processPad_keeps Config.hw frame s
  obtain ⟨hbitrate, hfatal, hprevLen, hprevApp, hshortApp, hactive, hbuf, hasm, hlabel, -⟩ :=
    superframe_keeps Config.hw (joined Config.hw frame s)
  refine ⟨_, congrArg Host.Outcome.next (addFrame_completes hcfg hlen hfill), ?_, ?_, ?_, ?_⟩
  · rw [emitCountersIfChanged_blockOnly]
    rfl
  · rw [emitCountersIfChanged_frames, superframe_frames, nextFrames_hw]
  · have hcount : (joined Config.hw frame s).counters.sfCount = s.counters.sfCount := hk.sfCount
    rw [emitCountersIfChanged_counters, superframe_sfCount, hcount]
  · simp only [emitCountersIfChanged_cfgBitrate, emitCountersIfChanged_fatal, emitCountersIfChanged_xpadPrevLen,
      emitCountersIfChanged_xpadPrevApp, emitCountersIfChanged_shortPrevApp, emitCountersIfChanged_dgActive,
      emitCountersIfChanged_dgBuf, emitCountersIfChanged_asm, emitCountersIfChanged_label]
    exact ⟨hbitrate.trans hk.cfgBitrate, hfatal.trans hk.fatal, hprevLen, hprevApp, hshortApp, hactive, hbuf, hasm, hlabel⟩

/-- Settles O36: by `processPad_keeps` and `superframe_keeps`; no stage of the pipeline writes the PAD counters. -/
theorem padAndAudioAreSeparate : Obligations.PadAndAudioAreSeparate := by
  intro p frame s
  constructor
  · have hk := processPad_keeps p frame s
    exact ⟨hk.cfgBitrate, hk.fatal, hk.frames, hk.syncState, hk.failRun, hk.lastGood, hk.nominalAus, hk.srHist,
      hk.successRate, hk.counters⟩
  · obtain ⟨hbitrate, hfatal, hprevLen, hprevApp, hshortApp, hactive, hbuf, hasm, hlabel, -⟩ := superframe_keeps p s
    refine ⟨hbitrate, hfatal, hprevLen, hprevApp, hshortApp, hactive, hbuf, hasm, hlabel, ?_, ?_⟩ <;>
      rw [superframe_counters, sfApplied_counters]

/-! The events of a frame. -/

/-- The events of a frame's PAD stand behind the earlier ones and are of the four PAD kinds (R73, R95). -/
def PadEvents (s t : State) : Prop :=
  ∃ pad, t.output = s.output ++ pad ∧ ∀ e ∈ pad, e.tag ∈ [(0x02 : Byte), 0x05, 0x06, 0x07]

theorem PadEvents.same {s t u : State} (h : PadEvents s t) (hout : u.output = t.output) : PadEvents s u := by
  obtain ⟨pad, heq, htags⟩ := h
  exact ⟨pad, hout.trans heq, htags⟩

theorem PadEvents.append {s t u : State} (h : PadEvents s t) {e : Event} (hout : u.output = t.output ++ [e])
    (htag : e.tag ∈ [(0x02 : Byte), 0x05, 0x06, 0x07]) : PadEvents s u := by
  obtain ⟨pad, heq, htags⟩ := h
  refine ⟨pad ++ [e], by rw [hout, heq, List.append_assoc], ?_⟩
  exact List.forall_mem_append.2 ⟨htags, List.forall_mem_singleton.2 htag⟩

theorem padEvents_closed (s : State) : PadClosed (PadEvents s) where
  event e t htag h := h.append rfl (by rcases htag with htag | htag <;> rw [htag] <;> decide)
  shortApp app t h := h.same rfl
  group active buf t h := h.same rfl
  crcError t h := h.same rfl
  segment info t _ _ h := by
    rw [labelSegment_eq]
    split
    · exact h.append (e := labelEvent _ _) rfl (by simp [labelEvent])
    · exact h.same rfl
  lengthError needed avail t h := h.append (e := padLengthErrorEvent needed avail) rfl (by simp [padLengthErrorEvent])
  prevApp len app t h := h.same rfl
  contApp app t h := h.same rfl

theorem processPad_events (p : Params) (frame : List Byte) (s : State) : PadEvents s (processPad p frame s) :=
  (padEvents_closed s).frame p frame ⟨[], (List.append_nil _).symm, by simp⟩

/-- The pipeline emits the access units in rising index, then SUPERFRAME_STATUS and SUCCESS_RATE (R157, R166, R216). -/
theorem superframe_events (p : Params) (s : State) :
    ∃ aus report, (superframe p s).output = s.output ++ aus ++ report ∧ (∀ e ∈ aus, e.tag = 0x01) ∧
      (aus.map fun e => e.body.head?) = (List.range aus.length).map (fun k => some (BitVec.ofNat 8 k)) ∧
      report.map (·.tag) = [0x0D, 0x03] := by
  refine ⟨_, _, superframe_output p s, ?_, ?_, rfl⟩ <;> rcases hu : (sfDecision p s).use with _ | c
  · simp
  · simp [auEvent]
  · simp
  · simp [auEvent, sfAus, hu, auRecords, auRecord, Function.comp_def]

/-- Settles O35: the PAD's events by `processPad_events`, the pipeline's by `superframe_events`, and the report of the
counters behind them. -/
theorem addFrameEventOrder : Obligations.AddFrameEventOrder := by
  intro frame s hcfg hlen
  obtain ⟨pad, hpad, htags⟩ := processPad_events Config.hw frame s
  have hjoined : (joined Config.hw frame s).output = s.output ++ pad := hpad
  by_cases hfill : s.frames.length = 4
  · obtain ⟨aus, report, hout, haus, hindex, hreport⟩ := superframe_events Config.hw (joined Config.hw frame s)
    refine ⟨_, pad, aus, report, _, congrArg Host.Outcome.next (addFrame_completes hcfg hlen hfill), ?_, htags, haus, hindex,
      fun hne => absurd hfill hne, by rw [if_pos hfill, hreport], rfl⟩
    rw [emitCountersIfChanged_output, hout, hjoined, emitCountersIfChanged_counters]
  · refine ⟨_, pad, [], [], _, congrArg Host.Outcome.next (addFrame_joins hcfg hlen hfill), ?_, htags, by simp, rfl,
      fun _ => rfl, by rw [if_neg hfill]; rfl, rfl⟩
    rw [emitCountersIfChanged_output, hjoined, emitCountersIfChanged_counters, List.append_nil, List.append_nil]

end Sys2Proof.Machine

/-! SUPPORT. The label and the counters over all commands (R36, R264, R268, R287, R288): what publishing leaves in the record,
that no operation but a session reset lowers a counter, and the two statements. -/

namespace Sys2Proof.Machine

theorem emitAll_nil (s : State) : emitAll [] s = s := by simp [emitAll]

/-- What a command can do (R85, R120 to R150): CommandError; or, with `rsv` 0, CONFIG, a session reset, ADD_FRAME, or nothing
but emit. -/
theorem exec_cases {i : Instr} {s t : State} (h : exec i s = .next t) :
    (∃ op code, t = commandError op code s) ∨
    (i.rsv = 0 ∧ i.opcode = 0x01 ∧ ∃ b, t = config Config.hw b s) ∨
    (i.rsv = 0 ∧ i.opcode = 0x02 ∧ t = sessionReset s) ∨
    (i.opcode = 0x03 ∧ ∃ frame, t = addFrame Config.hw frame s) ∨
    ∃ es, t = emitAll es s := by
  by_cases hillegal : 0x07 ≤ i.opcode.toNat ∨ i.rsv ≠ 0
  · rw [exec_of_illegal hillegal] at h
    cases h
    exact .inl ⟨_, _, rfl⟩
  · obtain ⟨hdefined, hrsv⟩ := not_or.1 hillegal
    have hrsv := not_not.1 hrsv
    have hrow := (opcode_range i).1 (by omega)
    cases i with
    | nop rsv arg =>
      obtain rfl : rsv = 0 := hrsv
      cases h
      exact .inr (.inr (.inr (.inr ⟨[], (emitAll_nil s).symm⟩)))
    | config rsv b =>
      obtain rfl : rsv = 0 := hrsv
      cases h
      exact .inr (.inl ⟨rfl, rfl, b, rfl⟩)
    | channelReset rsv arg =>
      obtain rfl : rsv = 0 := hrsv
      cases h
      exact .inr (.inr (.inl ⟨rfl, rfl, rfl⟩))
    | addFrame rsv payload =>
      obtain rfl : rsv = 0 := hrsv
      cases h
      exact .inr (.inr (.inr (.inl ⟨rfl, payload, rfl⟩)))
    | readReg rsv arg =>
      obtain rfl : rsv = 0 := hrsv
      cases h
      rw [checkRsv_zero, readReg]
      split
      · exact .inr (.inr (.inr (.inr ⟨[_], rfl⟩)))
      · exact .inl ⟨_, _, rfl⟩
    | snapshot rsv arg =>
      obtain rfl : rsv = 0 := hrsv
      cases h
      exact .inr (.inr (.inr (.inr ⟨[_], rfl⟩)))
    | readLabel rsv arg =>
      obtain rfl : rsv = 0 := hrsv
      cases h
      exact .inr (.inr (.inr (.inr ⟨[_], rfl⟩)))
    | reserved07 | reserved08 | reserved10 | reserved20 | reserved40 | reserved80 => exact False.elim hrow

/-- From `s` to `t` events were appended, and the completed label is the old one or is among them (R264, R268). -/
structure Published (s t : State) : Prop where
  appended : ∃ events, t.output = s.output ++ events
  label : t.label = s.label ∨ (t.label.valid = true ∧
    ∃ before after, t.output = s.output ++ before ++ labelEvent t.label.charset t.label.text :: after)

theorem Published.refl (s : State) : Published s s := ⟨⟨[], (List.append_nil _).symm⟩, .inl rfl⟩

theorem Published.append {s t u : State} (h : Published s t) (es : List Event) (hlabel : u.label = t.label)
    (hout : u.output = t.output ++ es) : Published s u := by
  obtain ⟨⟨events, hevents⟩, hsame | ⟨hvalid, before, after, hbefore⟩⟩ := h
  · exact ⟨⟨events ++ es, by rw [hout, hevents, List.append_assoc]⟩, .inl (hlabel.trans hsame)⟩
  · refine ⟨⟨events ++ es, by rw [hout, hevents, List.append_assoc]⟩, .inr ⟨hlabel ▸ hvalid, before, after ++ es, ?_⟩⟩
    rw [hout, hbefore, hlabel]
    simp

theorem Published.same {s t u : State} (h : Published s t) (hlabel : u.label = t.label) (hout : u.output = t.output) :
    Published s u := h.append [] hlabel (hout.trans (List.append_nil _).symm)

theorem Published.labelSegment {s t : State} (h : Published s t) (g : SegmentInfo) : Published s (labelSegment g t) := by
  obtain ⟨events, hevents⟩ := h.appended
  rw [labelSegment_eq]
  split
  · refine ⟨⟨events ++ [labelEvent (t.asm.store g).charset (t.asm.store g).text], ?_⟩, .inr ⟨rfl, events, [], ?_⟩⟩
    · rw [hevents, List.append_assoc]
    · rw [hevents]
  · exact h.same rfl rfl

theorem published_closed (s : State) : PadClosed (Published s) where
  event e _ _ h := h.append [e] rfl rfl
  shortApp _ _ h := h.same rfl rfl
  group _ _ _ h := h.same rfl rfl
  crcError _ h := h.same rfl rfl
  segment info _ _ _ h := h.labelSegment info
  lengthError needed avail _ h := h.append [padLengthErrorEvent needed avail] rfl rfl
  prevApp _ _ _ h := h.same rfl rfl
  contApp _ _ h := h.same rfl rfl

theorem published_addFrame (p : Params) (frame : List Byte) (s : State) : Published s (addFrame p frame s) := by
  have hjoined : Published s (joined p frame s) := ((published_closed s).frame p frame (.refl s)).same rfl rfl
  refine addFrame_rule (fun u hu => hu.append _ (by simp) (emitCountersIfChanged_output _ u))
    (fun _ => (Published.refl s).append _ rfl (framingError_output _ s)) (fun _ _ _ => hjoined) fun _ _ _ => ?_
  obtain ⟨aus, report, hout, -⟩ := superframe_events p (joined p frame s)
  have hlabel : (superframe p (joined p frame s)).label = (joined p frame s).label := by
    obtain ⟨-, -, -, -, -, -, -, -, hlabel, -⟩ := superframe_keeps p (joined p frame s)
    exact hlabel
  exact hjoined.append (aus ++ report) hlabel (by rw [hout, List.append_assoc])

theorem config_label (p : Params) (b : Half) (s : State) :
    (config p b s).label = s.label ∨ (config p b s).label = LabelReg.cleared := by
  rcases config_cases p b s with heq | heq | ⟨-, heq⟩ <;> rw [heq]
  · exact .inr rfl
  · exact .inl rfl
  · exact .inr rfl

/-- Settles O59: only a label segment, in the PAD of a frame, publishes a label, and only the session resets clear it. -/
theorem labelChangesOnlyWhenPublished : Obligations.LabelChangesOnlyWhenPublished := by
  intro i s t h
  rcases exec_cases h with ⟨_, _, rfl⟩ | ⟨-, hop, b, rfl⟩ | ⟨-, hop, rfl⟩ | ⟨hop, frame, rfl⟩ | ⟨_, rfl⟩
  · exact .inl rfl
  · refine (config_label Config.hw b s).imp_right fun hcleared => .inr ⟨?_, hcleared⟩
    rw [hop]
    decide
  · refine .inr (.inr ⟨?_, rfl⟩)
    rw [hop]
    decide
  · exact (published_addFrame Config.hw frame s).label.imp_right fun hpub => .inl ⟨hop, hpub⟩
  · exact .inl rfl

theorem CountersLe.refl (c : Counters) : CountersLe c c := by constructor <;> exact BitVec.le_refl _

theorem CountersLe.trans {c d e : Counters} (h : CountersLe c d) (hd : CountersLe d e) : CountersLe c e where
  frameErr := BitVec.le_trans h.frameErr hd.frameErr
  auErr := BitVec.le_trans h.auErr hd.auErr
  rsCorr := BitVec.le_trans h.rsCorr hd.rsCorr
  rsUncorr := BitVec.le_trans h.rsUncorr hd.rsUncorr
  padLenErr := BitVec.le_trans h.padLenErr hd.padLenErr
  dlCrcErr := BitVec.le_trans h.dlCrcErr hd.dlCrcErr
  sfCount := BitVec.le_trans h.sfCount hd.sfCount
  auFwd := BitVec.le_trans h.auFwd hd.auFwd

theorem CountersLe.countFrameErr (c : Counters) : CountersLe c { c with frameErr := satAdd32 c.frameErr 1 } :=
  { CountersLe.refl c with frameErr := le_satAdd32 _ 1 }

theorem labelSegment_counters (g : SegmentInfo) (s : State) : (labelSegment g s).counters = s.counters := by
  rw [labelSegment_eq]
  split <;> rfl

/-- The PAD of a frame lowers no counter (R283, R287). -/
theorem countersLe_padClosed (c : Counters) : PadClosed fun t => CountersLe c t.counters where
  event _ _ _ h := h
  shortApp _ _ h := h
  group _ _ _ h := h
  crcError t h := h.trans { CountersLe.refl t.counters with dlCrcErr := le_satAdd32 _ 1 }
  segment info t _ _ h := by rwa [labelSegment_counters]
  lengthError _ _ t h := h.trans { CountersLe.refl t.counters with padLenErr := le_satAdd32 _ 1 }
  prevApp _ _ _ h := h
  contApp _ _ h := h

theorem superframe_countersLe (p : Params) (s : State) : CountersLe s.counters (superframe p s).counters := by
  rw [superframe_counters, sfApplied_counters]
  constructor <;> dsimp only
  case frameErr => split; exacts [BitVec.le_refl _, le_satAdd32 _ _]
  case auErr => split; exacts [BitVec.le_refl _, le_satAdd32 _ _]
  case auFwd => split; exacts [BitVec.le_refl _, le_satAdd32 _ _]
  case rsCorr | rsUncorr | sfCount => exact le_satAdd32 _ _
  case padLenErr | dlCrcErr => exact BitVec.le_refl _

theorem addFrame_countersLe (p : Params) (frame : List Byte) (s : State) :
    CountersLe s.counters (addFrame p frame s).counters := by
  have hjoined : CountersLe s.counters (joined p frame s).counters :=
    (countersLe_padClosed s.counters).frame p frame (CountersLe.refl _)
  exact addFrame_rule (P := fun t => CountersLe s.counters t.counters) (fun u hu => by rwa [emitCountersIfChanged_counters])
    (fun _ => CountersLe.countFrameErr _) (fun _ _ _ => hjoined) fun _ _ _ => hjoined.trans (superframe_countersLe p _)

theorem config_counters (p : Params) (b : Half) (s : State) :
    (config p b s).counters = s.counters ∨ (config p b s).counters = Counters.zero := by
  rcases config_cases p b s with heq | heq | ⟨-, heq⟩ <;> rw [heq]
  · exact .inr rfl
  · exact .inl rfl
  · exact .inr rfl

/-- Settles O60: counters grow by saturating additions alone, and a session reset writes them all with 0. -/
theorem countersNeverDecrease : Obligations.CountersNeverDecrease := by
  intro i s t h
  rcases exec_cases h with ⟨_, _, rfl⟩ | ⟨hrsv, hop, b, rfl⟩ | ⟨hrsv, hop, rfl⟩ | ⟨-, frame, rfl⟩ | ⟨_, rfl⟩
  · exact .inl (CountersLe.refl _)
  · refine (config_counters Config.hw b s).imp (fun hsame => ?_) fun hzero => ⟨?_, hrsv, hzero⟩
    · rw [hsame]
      exact CountersLe.refl _
    · rw [hop]
      decide
  · refine .inr ⟨?_, hrsv, rfl⟩
    rw [hop]
    decide
  · exact .inl (addFrame_countersLe _ frame s)
  · exact .inl (CountersLe.refl _)

end Sys2Proof.Machine

/-! SUPPORT. The pipeline's decision and its report (R156 to R167): the four outcomes, what they leave in the window, the
records of the access units in use, and the three statements. -/

namespace Sys2Proof.Machine

/-- The decision in the statements' words: the failures in a row saturate at 255 (R27, R157, R162). -/
theorem sfDecision_eq (p : Params) (s : State) :
    sfDecision p s =
      if sfPass p s = true then if tableValid (sfCand s) = true then ⟨some (sfCand s), .ok⟩ else ⟨none, .rejectBoundary⟩
      else if s.lastGood.valid = true ∧ min (s.failRun.toNat + 1) 255 < p.desyncThreshold then
        ⟨some s.lastGood.config, .fallback⟩
      else ⟨none, .rejectHeader⟩ := by
  simp only [sfDecision, decideHeader, nextFailRun, toNat_satAdd8, Bool.and_eq_true, decide_eq_true_eq]

/-- Only a rejected header leaves frames in the window, when the boundary hunt is on (R156, R163). -/
theorem nextFrames_rejectHeader (p : Params) (frames : List (List Byte)) :
    nextFrames p .rejectHeader frames = if p.boundaryHunt = true then frames.drop 1 else [] := by
  simp [nextFrames]

theorem nextFrames_of_ne {outcome : SfOutcome} (h : outcome ≠ .rejectHeader) (p : Params) (frames : List (List Byte)) :
    nextFrames p outcome frames = [] := if_neg fun hc => h hc.1

theorem superframe_frameErr (p : Params) (s : State) :
    (superframe p s).counters.frameErr =
      if sfPass p s = true ∧ tableValid (sfCand s) = true then s.counters.frameErr else satAdd32 s.counters.frameErr 1 := by
  rw [superframe_counters, sfApplied_counters]

theorem nextFailRun_toNat (s : State) : (nextFailRun s).toNat = min (s.failRun.toNat + 1) 255 := toNat_satAdd8 _ 1

/-- The rows of R167 for a header that passes (R160, R161). -/
theorem superframe_of_pass {p : Params} {s : State} (hpass : sfPass p s = true) :
    (superframe p s).frames = [] ∧ (superframe p s).syncState = .locked ∧ (superframe p s).failRun = 0 ∧
      (superframe p s).lastGood = (if tableValid (sfCand s) = true then LastGood.store (sfCand s) else s.lastGood) ∧
      (superframe p s).counters.frameErr =
        if tableValid (sfCand s) = true then s.counters.frameErr else satAdd32 s.counters.frameErr 1 := by
  obtain ⟨hsync, hrun, hlg⟩ := superframe_header_pass hpass
  refine ⟨?_, hsync, hrun, hlg, by rw [superframe_frameErr]; simp only [hpass, true_and]⟩
  rw [superframe_frames]
  refine nextFrames_of_ne ?_ p _
  rw [sfDecision_eq, if_pos hpass]
  split <;> nofun

/-- The rows of R167 for a header that fails (R162, R163). -/
theorem superframe_of_fail {p : Params} {s : State} (hfail : sfPass p s = false) :
    (superframe p s).failRun.toNat = min (s.failRun.toNat + 1) 255 ∧
      (superframe p s).counters.frameErr = satAdd32 s.counters.frameErr 1 ∧
      (superframe p s).frames =
        if s.lastGood.valid = true ∧ min (s.failRun.toNat + 1) 255 < p.desyncThreshold then []
        else if p.boundaryHunt = true then s.frames.drop 1 else [] := by
  obtain ⟨hrun, -, -⟩ := superframe_header_fail hfail
  refine ⟨by rw [hrun, nextFailRun_toNat], by rw [superframe_frameErr, hfail]; rfl, ?_⟩
  rw [superframe_frames, sfDecision_eq, hfail, if_neg (by decide)]
  split
  · exact nextFrames_of_ne (outcome := .fallback) nofun p _
  · exact nextFrames_rejectHeader p _

/-- Settles O37: the rows of R167 by `superframe_of_pass` and `superframe_of_fail`; at the threshold there is no fallback. -/
theorem headerStateMachine : Obligations.HeaderStateMachine := by
  intro p s t rs pass cand fails hunted
  rcases hpass : sfPass p s
  · obtain ⟨hrun, herr, hframes⟩ := superframe_of_fail hpass
    obtain ⟨-, hsync, hlg⟩ := superframe_header_fail hpass
    rw [nextFailRun_toNat] at hsync hlg
    rw [if_neg (show ¬pass = true from Bool.eq_false_iff.1 hpass)]
    refine ⟨hrun, herr, ?_⟩
    split_ifs with hthreshold hvalid
    · rw [if_pos hthreshold] at hsync hlg
      rw [if_neg fun hc => absurd hc.2 (Nat.not_lt.2 hthreshold)] at hframes
      exact ⟨hframes, hsync, hlg⟩
    · rw [if_neg hthreshold] at hsync hlg
      rw [if_pos ⟨hvalid, Nat.not_le.1 hthreshold⟩] at hframes
      exact ⟨hframes, hsync, hlg⟩
    · rw [if_neg hthreshold] at hsync hlg
      rw [if_neg fun hc => hvalid hc.1] at hframes
      exact ⟨hframes, hsync, hlg⟩
  · obtain ⟨hframes, hsync, hrun, hlg, herr⟩ := superframe_of_pass hpass
    rw [if_pos (show pass = true from hpass)]
    split_ifs with hvalid
    · rw [if_pos (show tableValid (sfCand s) = true from hvalid)] at hlg herr
      exact ⟨hframes, hsync, hrun, hlg, herr⟩
    · rw [if_neg (show ¬tableValid (sfCand s) = true from hvalid)] at hlg herr
      exact ⟨hframes, hsync, hrun, hlg, herr⟩

/-- The valid access units are those that are not invalid (R216). -/
theorem countP_valid (aus : List AuRecord) : aus.length - invalidAus aus = aus.countP (·.valid) := by
  have hsum := List.length_eq_countP_add_countP (fun a : AuRecord => a.valid) (l := aus)
  have hnot : invalidAus aus = aus.countP fun a => decide ¬a.valid = true := by
    simp [invalidAus]
  omega

/-- The header byte that the records of the access units carry (R216). -/
def sfHdr (p : Params) (s : State) : Byte := ((sfDecision p s).use.map (·.hdr)).getD 0

theorem sfHdr_eq_elim (p : Params) (s : State) : sfHdr p s = (sfDecision p s).use.elim 0 (·.hdr) := by
  unfold sfHdr
  cases (sfDecision p s).use <;> rfl

theorem sfAus_eq_elim (p : Params) (s : State) :
    sfAus p s = (sfDecision p s).use.elim []
      (auRecords s.subchannel (rsDecode s.subchannel s.window).data (rsDecode s.subchannel s.window).unc) := by
  unfold sfAus
  cases (sfDecision p s).use <;> rfl

theorem sfTot_eq_elim (p : Params) (s : State) : sfTot p s = (sfDecision p s).use.elim (max s.nominalAus.toNat 1) (·.n) := by
  unfold sfTot
  cases (sfDecision p s).use <;> rfl

/-- The records of the pipeline in the statements' words (R92, R98, R166). -/
theorem superframe_records (p : Params) (s : State) :
    (superframe p s).output = s.output ++
      (sfAus p s).map (fun a => ⟨0x01, [BitVec.ofNat 8 a.index, if a.valid then 1 else 0, sfHdr p s] ++ a.payload⟩) ++
      [⟨0x0D, [(sfDecision p s).outcome.code] ++ be16Nat (min (rsDecode s.subchannel s.window).corr 65535) ++
        [BitVec.ofNat 8 ((rsDecode s.subchannel s.window).unc.countP id), BitVec.ofNat 8 (sfAus p s).length,
          BitVec.ofNat 8 ((sfAus p s).countP (!·.valid)), (superframe p s).syncState.code, (superframe p s).failRun]⟩,
        ⟨0x03, [(superframe p s).successRate]⟩] := by
  rw [superframe_output]
  rcases hu : (sfDecision p s).use with _ | h
  · rw [sfAus_none hu]
    rfl
  · have hhdr : sfHdr p s = h.hdr := by rw [sfHdr, hu]; rfl
    rw [hhdr]
    rfl

/-- The counters of the access units after the pipeline (R216, R281). -/
theorem superframe_auCounters (p : Params) (s : State) :
    (superframe p s).counters.auErr = satAdd32 s.counters.auErr ((sfAus p s).countP (!·.valid)) ∧
      (superframe p s).counters.auFwd = satAdd32 s.counters.auFwd (sfAus p s).length := by
  have hzero (c : Word) : satAdd32 c 0 = c := by
    apply BitVec.eq_of_toNat_eq
    rw [toNat_satAdd32]
    omega
  rw [superframe_counters, sfApplied_counters]
  dsimp only
  split
  next hu =>
    rw [sfAus_none hu]
    exact ⟨(hzero _).symm, (hzero _).symm⟩
  next => exact ⟨rfl, rfl⟩

/-- `nominal_aus` after the pipeline: the number of access units in use (R164). -/
theorem superframe_nominal_eq (p : Params) (s : State) :
    (superframe p s).nominalAus =
      if (sfDecision p s).use.isSome = true then BitVec.ofNat 3 (sfTot p s) else s.nominalAus := by
  rw [superframe_nominalAus]
  rcases hu : (sfDecision p s).use with _ | h
  · rfl
  · rw [(sfAus_length hu).2]
    rfl

/-- Settles O39: the record by `superframe_records`, the pair by `superframe_srHist`, the counters by
`superframe_auCounters`, each at the decision that `decideHeader_eq` writes out. -/
theorem pipelineReport : Obligations.PipelineReport := by
  intro p s t rs pass cand fails use outcome aus hdr tot ok bad hist
  obtain ⟨huse, houtcome⟩ := decideHeader_eq p pass cand s
  have huse : (sfDecision p s).use = use := huse
  have houtcome : (sfDecision p s).outcome.code = outcome := houtcome
  have haus : sfAus p s = aus := by
    rw [sfAus_eq_elim, huse]
    clear_value use
    cases use <;> rfl
  have htot : sfTot p s = tot := by
    rw [sfTot_eq_elim, huse]
    clear_value use
    cases use <;> rfl
  have hhdr : sfHdr p s = hdr := by
    rw [sfHdr_eq_elim, huse]
    clear_value use
    cases use <;> rfl
  have hcounts : aus.length = ok + bad := by
    have hok := countP_valid aus
    have hle := invalidAus_le_length aus
    change _ = aus.countP (·.valid) + invalidAus aus
    omega
  have hrecords := superframe_records p s
  rw [houtcome, haus, hhdr] at hrecords
  have hhist := superframe_srHist p s
  rw [haus, htot, countP_valid] at hhist
  obtain ⟨herr, hfwd⟩ := superframe_auCounters p s
  rw [haus] at herr hfwd
  rw [hcounts] at hfwd
  have hnominal := superframe_nominal_eq p s
  rw [huse, htot] at hnominal
  exact ⟨hrecords, hhist, superframe_successRate p s, herr, hfwd, hnominal⟩

/-- Settles O40: below the threshold the decision is the fallback, and the sticky configuration reads back as the accepted
header by `config_store_parseHeader`. -/
theorem fallbackUsesTheAcceptedHeader : Obligations.FallbackUsesTheAcceptedHeader := by
  intro p s old rs h hsize hlg hfail hbelow hmax
  have huse : (sfDecision p s).use = some h := by
    have hfail : sfPass p s = false := hfail
    have hfallback : s.lastGood.valid = true ∧ min (s.failRun.toNat + 1) 255 < p.desyncThreshold :=
      ⟨by rw [hlg]; rfl, by omega⟩
    rw [sfDecision_eq, hfail, if_neg (by decide), if_pos hfallback, hlg, config_store_parseHeader hsize]
  have haus : sfAus p s = auRecords s.subchannel rs.data rs.unc h := by rw [sfAus, huse]
  have hout := superframe_output p s
  rw [huse, haus] at hout
  refine ⟨_, ?_, hout⟩
  rfl

end Sys2Proof.Machine

/-! SUPPORT. Access units (R103, R200, R211, R212, R217): slices of a list between rising offsets, the offsets of a valid table,
and the two statements. -/

namespace Sys2Proof.Machine

/-- Two neighbouring slices are one. -/
theorem slice_append_slice {α : Type} (l : List α) {x y z : Nat} (hxy : x ≤ y) (hyz : y ≤ z) :
    (l.take y).drop x ++ (l.take z).drop y = (l.take z).drop x := by
  have hfront : l.take y = (l.take z).take y := by rw [List.take_take, Nat.min_eq_left hyz]
  conv_rhs => rw [← List.take_append_drop y (l.take z)]
  rw [List.drop_append, hfront]
  congr 1
  by_cases hx : x ≤ (l.take z).length
  · rw [Nat.sub_eq_zero_of_le (by rw [List.length_take]; omega), List.drop_zero]
  · rw [List.drop_eq_nil_of_le (show (l.take z).length ≤ y by omega), List.drop_nil]

theorem le_of_steps {f : Nat → Nat} {n : Nat} (h : ∀ i, i < n → f i ≤ f (i + 1)) {i j : Nat} (hij : i ≤ j) (hjn : j ≤ n) :
    f i ≤ f j := by
  induction j, hij using Nat.le_induction with
  | base => exact le_rfl
  | succ j _ ih => exact (ih (by omega)).trans (h j (by omega))

/-- The slices between rising offsets, put together. -/
theorem flatMap_slices {α : Type} (l : List α) {f : Nat → Nat} {n : Nat} (h : ∀ i, i < n → f i ≤ f (i + 1)) :
    (List.range n).flatMap (fun i => (l.take (f (i + 1))).drop (f i)) = (l.take (f n)).drop (f 0) := by
  induction n with
  | zero => simp
  | succ n ih =>
    rw [List.range_succ, List.flatMap_append, ih fun i hi => h i (by omega), List.flatMap_singleton]
    exact slice_append_slice l (le_of_steps h (Nat.zero_le n) (Nat.le_succ n)) (h n (Nat.lt_succ_self n))

/-- A strictly increasing list of offsets, entry by entry (R212). -/
theorem getD_lt_of_strictlyIncreasing {l : List Nat} (h : strictlyIncreasing l = true) {i : Nat} (hi : i + 1 < l.length) :
    l.getD i 0 < l.getD (i + 1) 0 := by
  induction l generalizing i with
  | nil => simp at hi
  | cons a l ih =>
    cases l with
    | nil => simp at hi
    | cons b l =>
      obtain ⟨hab, hrest⟩ := Bool.and_eq_true_iff.1 h
      cases i with
      | zero => exact of_decide_eq_true hab
      | succ i => exact ih hrest (by simpa using hi)

/-- The last offset of a parsed table is the end of the data region (R211). -/
theorem parseHeader_last (size : Nat) (data : List Byte) :
    (parseHeader size data).auStart.getD (parseHeader size data).n 0 = 110 * size := by
  have hlast : (parseHeader size data).auStart.getLast? = some (110 * size) := by
    rw [parseHeader, List.getLast?_append]
    rfl
  rw [List.getLast?_eq_getElem?, parseHeader_length, Nat.add_sub_cancel] at hlast
  rw [List.getD_eq_getElem?_getD, hlast]
  rfl

theorem parseHeader_rising {size : Nat} {data : List Byte} (h : tableValid (parseHeader size data) = true) {i : Nat}
    (hi : i < (parseHeader size data).n) :
    (parseHeader size data).auStart.getD i 0 < (parseHeader size data).auStart.getD (i + 1) 0 :=
  getD_lt_of_strictlyIncreasing h (by rw [parseHeader_length]; omega)

/-- Settles O41: the byte ranges are slices between rising offsets, the last of which is the data's length. -/
theorem accessUnitsTileTheData : Obligations.AccessUnitsTileTheData := by
  intro size data hlen hvalid h
  have hrising : ∀ i, i < h.n → h.auStart.getD i 0 < h.auStart.getD (i + 1) 0 := fun _ hi => parseHeader_rising hvalid hi
  have hsteps : ∀ i, i < h.n → h.auStart.getD i 0 ≤ h.auStart.getD (i + 1) 0 := fun i hi => (hrising i hi).le
  have hend : h.auStart.getD h.n 0 = data.length := (parseHeader_last size data).trans hlen.symm
  refine ⟨(flatMap_slices data hsteps).trans (by rw [hend, List.take_length]), fun i hi => ?_⟩
  have hlt := hrising i hi
  have hle : h.auStart.getD (i + 1) 0 ≤ h.auStart.getD h.n 0 :=
    le_of_steps (f := fun k => h.auStart.getD k 0) hsteps (Nat.succ_le_of_lt hi) le_rfl
  rw [auBytes, List.length_drop, List.length_take]
  omega

/-- Among any `s` bytes in a row one lies in row `j` (R192, R200). -/
theorem exists_interleaveRow {s j : Nat} (hj : j < s) (a : Nat) : ∃ k, k < s ∧ Tables.interleaveRow s (a + k) = j := by
  have hmod : a % s < s := Nat.mod_lt _ (by omega)
  refine ⟨(j + (s - a % s)) % s, Nat.mod_lt _ (by omega), ?_⟩
  have hsum : a % s + (j + (s - a % s)) = j + s := by omega
  rw [Tables.interleaveRow, Nat.add_mod_mod, ← Nat.mod_add_mod, hsum, Nat.add_mod_right, Nat.mod_eq_of_lt hj]

/-- Settles O42: `s` bytes in a row touch every row, so the uncorrectable one among them. -/
theorem uncorrectableRowTaintsLongAus : Obligations.UncorrectableRowTaintsLongAus := by
  intro size data unc h i j hj hunc hlong
  obtain ⟨k, hk, hrow⟩ := exists_interleaveRow hj (h.auStart.getD i 0)
  have htouch : touchesUncorrectable size unc (h.auStart.getD i 0) (h.auStart.getD (i + 1) 0) = true :=
    List.any_eq_true.2 ⟨k, List.mem_range.2 (by omega), by rw [hrow, hunc]⟩
  rw [auRecord, htouch]
  exact Bool.and_false _

end Sys2Proof.Machine

/-! SUPPORT. The Reed-Solomon decoder over a window (R190 to R203): each data byte in its decoded row, a window of codewords,
and the four statements. -/

namespace Sys2Proof.Machine

/-- Settles O43: the field laws proved for the decoder. -/
theorem gfMultiplicationIsAField : Obligations.GfMultiplicationIsAField :=
  fun a b c => ⟨gmul_comm a b, gmul_assoc a b c, gmul_xor_right a b c, (gmul_comm a 1).trans (one_gmul a), gmul_ginv⟩

/-- Settles O44: codewords at distance at most 10 are equal. -/
theorem codewordsDifferInElevenPositions : Obligations.CodewordsDifferInElevenPositions := by
  intro c d hc hd hccode hdcode hne
  by_contra hnear
  exact hne (@eq_of_codewords_near Gf gfField Gf.mk gfEmbeds_mk d c hd hc hccode hdcode (by omega)).symm

/-- The data bytes come from the decoded rows, byte by byte (R192, R199). -/
theorem rsDecode_data_getElem? {size : Nat} (window : List Byte) {pos : Nat} (hpos : pos < 110 * size) :
    (rsDecode size window).data[pos]? =
      some (byteAt (decodeRow (matrixRow size window (pos % size))).row (pos / size)) := by
  have hrow : pos % size < size := Nat.mod_lt _ (by omega)
  simp [rsDecode, hpos, hrow]

/-- Settles O46: position `j + k × s` is column `k` of row `j`. -/
theorem rsDecodeInterleaves : Obligations.RsDecodeInterleaves := by
  intro size window rs
  refine ⟨rsDecode_data_length size window, by simp [rs, rsDecode], ?_, fun j hj => ⟨by simp [rs, rsDecode, hj], fun k hk => ?_⟩⟩
  · simp [rs, rsDecode, Function.comp_def]
  · have hrow : (j + k * size) % size = j := (Tables.interleave_inverse hj k).1
    have hcolumn : (j + k * size) / size = k := (Tables.interleave_inverse hj k).2
    have hpos : j + k * size < 110 * size := by
      have := Nat.mul_le_mul_right size (show k + 1 ≤ 110 by omega)
      rw [Nat.add_mul] at this
      omega
    rw [rsDecode_data_getElem? window hpos, hrow, hcolumn]

/-- A codeword decodes to itself (R196). -/
theorem decodeRow_of_codeword {row : List Byte} (h : isCodeword row = true) : decodeRow row = ⟨row, 0, false⟩ := if_pos h

/-- Byte `k` of row `j` is the window's byte at their position (R192). -/
theorem byteAt_matrixRow (size : Nat) (window : List Byte) (j : Nat) {k : Nat} (hk : k < 120) :
    byteAt (matrixRow size window j) k = byteAt window (j + k * size) := by
  have hlt : k < (matrixRow size window j).length := by rwa [matrixRow_length]
  rw [byteAt_eq_getElem _ _ hlt, matrixRow_getElem]

/-- Settles O47: every row decodes to itself, so each data byte is the window's byte at its own position. -/
theorem cleanWindowDecodesToItself : Obligations.CleanWindowDecodesToItself := by
  intro size window hlen hclean
  have hrow {j : Nat} (hj : j < size) : decodeRow (matrixRow size window j) = ⟨matrixRow size window j, 0, false⟩ :=
    decodeRow_of_codeword (hclean j hj)
  have hdata : (rsDecode size window).data = window.take (110 * size) := by
    refine List.ext_getElem? fun pos => ?_
    by_cases hpos : pos < 110 * size
    · have hcolumn : pos / size < 120 := Nat.div_lt_of_lt_mul (by rw [Nat.mul_comm]; omega)
      have hplace : pos % size + pos / size * size = pos := by rw [Nat.mul_comm, Nat.mod_add_div]
      rw [rsDecode_data_getElem? window hpos, hrow (Nat.mod_lt _ (by omega)), byteAt_matrixRow _ _ _ hcolumn, hplace,
        byteAt_eq_getElem _ _ (by omega), List.getElem?_take_of_lt hpos, List.getElem?_eq_getElem]
    · rw [List.getElem?_eq_none (by rw [rsDecode_data_length]; omega),
        List.getElem?_eq_none (by rw [List.length_take]; omega)]
  have hrows {β : Type} (f : RowResult → β) :
      ((List.range size).map fun j => decodeRow (matrixRow size window j)).map f =
        (List.range size).map fun j => f ⟨matrixRow size window j, 0, false⟩ := by
    rw [List.map_map]
    exact List.map_congr_left fun j hj => congrArg f (hrow (List.mem_range.1 hj))
  have hunc : (rsDecode size window).unc = List.replicate size false := (hrows (·.uncorrectable)).trans (by simp)
  have hcorr : (rsDecode size window).corr = 0 := (congrArg List.sum (hrows (·.count))).trans (by simp)
  calc rsDecode size window
      = ⟨(rsDecode size window).data, (rsDecode size window).unc, (rsDecode size window).corr⟩ := rfl
    _ = ⟨window.take (110 * size), List.replicate size false, 0⟩ := by rw [hdata, hunc, hcorr]

end Sys2Proof.Machine

/-! SUPPORT. The firecode (R180 to R185): the register is linear over exclusive-or, so a header passes by what its bit errors
leave in the check, and the two statements. -/

namespace Sys2Proof.Machine

theorem crcShift_xor_distrib (poly r v : Half) : crcShift poly (r ^^^ v) = crcShift poly r ^^^ crcShift poly v := by
  have hpoly (a b : Bool) : (if a ^^ b then poly else 0) = (if a then poly else 0) ^^^ (if b then poly else 0) := by
    cases a <;> cases b <;> simp
  rw [crcShift_eq, crcShift_eq, crcShift_eq, BitVec.msb_xor, BitVec.shiftLeft_xor_distrib, hpoly]
  ac_rfl

theorem crcShift_iterate_xor_distrib (poly r v : Half) (n : Nat) :
    (crcShift poly)^[n] (r ^^^ v) = (crcShift poly)^[n] r ^^^ (crcShift poly)^[n] v := by
  induction n with
  | zero => rfl
  | succ n ih => rw [Function.iterate_succ_apply', Function.iterate_succ_apply', Function.iterate_succ_apply', ih,
      crcShift_xor_distrib]

theorem crcByte_xor (poly r v : Half) (a b : Byte) :
    crcByte poly (r ^^^ v) (a ^^^ b) = crcByte poly r a ^^^ crcByte poly v b := by
  rw [crcByte_eq, crcByte_eq, crcByte_eq, ← crcShift_iterate_xor_distrib, BitVec.setWidth_xor, BitVec.shiftLeft_xor_distrib]
  congr 1
  ac_rfl

theorem crcRegister_rowXor (poly r v : Half) {a b : List Byte} (h : a.length = b.length) :
    crcRegister poly (r ^^^ v) (rowXor a b) = crcRegister poly r a ^^^ crcRegister poly v b := by
  induction a generalizing b r v with
  | nil =>
    obtain rfl := List.eq_nil_of_length_eq_zero h.symm
    rfl
  | cons x a ih =>
    cases b with
    | nil => cases h
    | cons y b =>
      rw [show rowXor (x :: a) (y :: b) = (x ^^^ y) :: rowXor a b from rfl, crcRegister_cons, crcRegister_cons,
        crcRegister_cons, crcByte_xor]
      exact ih _ _ (Nat.succ.inj h)

theorem firecode_rowXor {a b : List Byte} (h : a.length = b.length) : firecode (rowXor a b) = firecode a ^^^ firecode b := by
  rw [firecode_eq, firecode_eq, firecode_eq]
  exact crcRegister_rowXor _ 0 0 h

/-- Settles O48: the register starts at 0, and each byte is taken linearly. -/
theorem firecodeIsLinear : Obligations.FirecodeIsLinear := fun _ _ h => firecode_rowXor h

/-- What a header leaves in the check: the firecode of its covered bytes and its firecode word together (R180). -/
def firecodeRemainder (header : List Byte) : Half := firecode (Tables.firecodeCovered header) ^^^ Tables.firecodeWord header

theorem firecodeOk_iff (header : List Byte) : firecodeOk header = true ↔ firecodeRemainder header = 0 := by
  rw [firecodeOk, beq_iff_eq, firecodeRemainder]
  exact BitVec.xor_eq_zero_iff.symm

theorem byteAt_rowXor {a b : List Byte} (h : a.length = b.length) (i : Nat) :
    byteAt (rowXor a b) i = byteAt a i ^^^ byteAt b i := by
  by_cases hi : i < a.length
  · have hb : i < b.length := h ▸ hi
    rw [byteAt_eq_getElem _ _ hi, byteAt_eq_getElem _ _ hb, byteAt_eq_getElem _ _ (by simp [rowXor, hi, hb])]
    simp [rowXor]
  · have hb : b.length ≤ i := h ▸ Nat.not_lt.1 hi
    have hxor : (rowXor a b).length ≤ i := by simp [rowXor, hb]
    simp [byteAt, List.getElem?_eq_none (Nat.not_lt.1 hi), List.getElem?_eq_none hb, List.getElem?_eq_none hxor]

theorem firecodeRemainder_rowXor {a b : List Byte} (h : a.length = b.length) :
    firecodeRemainder (rowXor a b) = firecodeRemainder a ^^^ firecodeRemainder b := by
  have hcovered : Tables.firecodeCovered (rowXor a b) = rowXor (Tables.firecodeCovered a) (Tables.firecodeCovered b) := by
    simp [Tables.firecodeCovered, rowXor, List.drop_zipWith, List.take_zipWith]
  have hlen : (Tables.firecodeCovered a).length = (Tables.firecodeCovered b).length := by
    simp [Tables.firecodeCovered, h]
  have hword : Tables.firecodeWord (rowXor a b) = Tables.firecodeWord a ^^^ Tables.firecodeWord b := by
    simp only [Tables.firecodeWord, Tables.formatWord, byteAt_rowXor h, be16]
    exact BitVec.xor_append.symm
  rw [firecodeRemainder, hcovered, hword, firecode_rowXor hlen, firecodeRemainder, firecodeRemainder]
  ac_rfl

/-- Eleven bytes with one bit set. -/
def singleBit (i bit : Nat) : List Byte := (List.range 11).map fun k => if k = i then (1 : Byte) <<< bit else 0

/-- Flipping a bit of a header is adding a single bit to it (R13). -/
theorem modify_eq_rowXor {header : List Byte} (hlen : header.length = 11) (i bit : Nat) :
    header.modify i (· ^^^ ((1 : Byte) <<< bit)) = rowXor header (singleBit i bit) := by
  refine List.ext_getElem (by simp [rowXor, singleBit, hlen]) fun k hk _ => ?_
  rw [List.getElem_modify]
  by_cases hik : i = k
  · simp [rowXor, singleBit, hik]
  · simp [rowXor, singleBit, hik, Ne.symm hik]

/-- No single bit leaves the check at 0 (R183). -/
theorem firecodeRemainder_singleBit {i bit : Nat} (hi : i < 11) (hbit : bit < 8) :
    firecodeRemainder (singleBit i bit) ≠ 0 := by
  have hall : ∀ (i : Fin 11) (bit : Fin 8), firecodeRemainder (singleBit i bit) ≠ 0 := by decide +kernel
  exact hall ⟨i, hi⟩ ⟨bit, hbit⟩

/-- Settles O49: by linearity the flipped header leaves in the check what the single bit leaves, which is not 0. -/
theorem firecodeDetectsEverySingleBitError : Obligations.FirecodeDetectsEverySingleBitError := by
  intro header i bit hlen hok hi hbit
  refine Bool.eq_false_iff.2 fun hpass => firecodeRemainder_singleBit hi hbit ?_
  rw [firecodeOk_iff] at hok hpass
  rw [modify_eq_rowXor hlen, firecodeRemainder_rowXor (by simp [singleBit, hlen]), hok] at hpass
  simpa using hpass

end Sys2Proof.Machine

/-! SUPPORT. The variable-size X-PAD (R236 to R240, R247): a list as the sender lays it out, its walk, a continued sub-field, what
a frame can raise, and the two statements. -/

namespace Sys2Proof.Machine

/-- What delivering a sub-field does, as the walk does it (R239, R241). -/
theorem deliverSubfield_eq (p : Params) (app : BitVec 5) (bytes : List Byte) (s : State) :
    deliverSubfield p app bytes s = setXpadPrev bytes.length app (dispatchSubfield p app bytes s) := rfl

theorem padLengthErrorEffect_eq (needed avail : Nat) (s : State) :
    padLengthErrorEffect needed avail s = padLengthError needed avail s := rfl

/-- A list of declared sub-fields, some of them followed by their bytes: the walk delivers those and goes on with the others
(R236, R237, R239). -/
theorem varXpadWithCi_laidOut (p : Params) (subs : List (Byte × List Byte)) (more marker rest : List Byte) (s : State)
    (hsubs : ∀ e ∈ subs, SubfieldOk e) (hmore : ∀ c ∈ more, c.extractLsb' 0 5 ≠ (0 : BitVec 5))
    (hend : ListEnd (subs.length + more.length) marker) :
    varXpadWithCi p (subs.map (·.1) ++ more ++ marker ++ subs.flatMap (·.2) ++ rest) s =
      walkSubfields p (subs.map (·.1) ++ more ++ marker ++ subs.flatMap (·.2) ++ rest) (more.map ciEntry)
        ((subs.map (·.1) ++ more ++ marker).length + (subs.flatMap (·.2)).length)
        (subs.foldl (fun u e => deliverSubfield p (e.1.extractLsb' 0 5) e.2 u) s) := by
  have hcis : ∀ c ∈ subs.map (·.1) ++ more, c.extractLsb' 0 5 ≠ (0 : BitVec 5) := by
    refine List.forall_mem_append.2 ⟨fun c hc => ?_, hmore⟩
    obtain ⟨e, he, rfl⟩ := List.mem_map.1 hc
    exact (hsubs e he).1
  have hcount : (subs.map (·.1) ++ more).length = subs.length + more.length := by simp
  have hlist := ciList_laidOut 4 (subs.map (·.1) ++ more) marker (subs.flatMap (·.2) ++ rest) hcis (by rwa [hcount])
  rw [← List.append_assoc] at hlist
  have hentries : (subs.map (·.1) ++ more).map ciEntry = subs.map (fun e => ciEntry e.1) ++ more.map ciEntry := by
    simp [Function.comp_def]
  have hlen : (subs.map (·.1) ++ more).length + marker.length = (subs.map (·.1) ++ more ++ marker).length :=
    List.length_append.symm
  rw [varXpadWithCi, Tables.ciMax_eq, hlist, hentries, hlen]
  exact walkSubfields_laidOut p subs (subs.map (·.1) ++ more ++ marker) rest (more.map ciEntry) s hsubs

/-- A continued sub-field that the X-PAD holds (R240, R241). -/
theorem varXpadCont_delivers (p : Params) {bytes : List Byte} (rest : List Byte) {s : State}
    (hlen : bytes.length = s.xpadPrevLen.toNat) (hne : bytes ≠ []) :
    varXpadCont p (bytes ++ rest) s = deliverSubfield p (Tables.contApp s.xpadPrevApp) bytes s := by
  have hpos : ¬s.xpadPrevLen.toNat = 0 := by rw [← hlen]; exact mt List.length_eq_zero_iff.1 hne
  have hfits : ¬(bytes ++ rest).length < s.xpadPrevLen.toNat := by rw [List.length_append]; omega
  have htake : (bytes ++ rest).take s.xpadPrevLen.toNat = bytes := by rw [← hlen, List.take_left]
  have hprev : (dispatchSubfield p (Tables.contApp s.xpadPrevApp) bytes s).xpadPrevLen = BitVec.ofNat 6 bytes.length := by
    rw [(dispatchSubfield_keeps p _ bytes s).xpadPrevLen, hlen, BitVec.ofNat_toNat, BitVec.setWidth_eq]
  rw [varXpadCont, if_neg hpos, if_neg hfits, htake, deliverSubfield_eq, setXpadPrev, ← hprev]

/-- With nothing to continue a frame without a list does nothing (R240). -/
theorem varXpadCont_none (p : Params) (xpad : List Byte) {s : State} (h : s.xpadPrevLen.toNat = 0) :
    varXpadCont p xpad s = s := by
  rw [varXpadCont, if_pos h]

theorem varXpadCont_overrun (p : Params) {xpad : List Byte} {s : State} (h : xpad.length < s.xpadPrevLen.toNat) :
    varXpadCont p xpad s = padLengthError s.xpadPrevLen.toNat xpad.length s := by
  rw [varXpadCont, if_neg (by omega), if_pos h]

/-- Settles O53: the walk ends behind the last sub-field laid out; without a list the continued one is delivered. -/
theorem variableXpadEffect : Obligations.VariableXpadEffect := by
  intro p fb1 fb2 s hfb1
  refine ⟨fun hci subs marker rest hsubs hend => ?_, fun hci bytes rest hlen => ?_⟩
  · rw [processPad_variable p _ fb1 fb2 s hfb1, if_pos hci]
    simpa [walkSubfields] using varXpadWithCi_laidOut p subs [] marker rest s hsubs (by simp) (by simpa using hend)
  · intro last next
    rw [processPad_variable p _ fb1 fb2 s hfb1, hci, if_neg (by decide)]
    split
    next hnil => exact varXpadCont_none p _ (by rw [← hlen, hnil]; rfl)
    next hne =>
      rw [varXpadCont_delivers p rest hlen hne, Tables.contApp_eq]

/-- From `s` to `t` either no PADLengthError, or one, counted and with its record last, of more bytes than `avail` (R238, R247). -/
def LengthVerdict (avail : Nat) (s t : State) : Prop :=
  (t.raised = s.raised ∧ t.counters.padLenErr = s.counters.padLenErr) ∨
    ∃ needed, avail < needed ∧ t.raised = s.raised ++ [.padLength needed avail] ∧
      t.counters.padLenErr = satAdd32 s.counters.padLenErr 1 ∧
      t.output.getLast? = some ⟨0x05, be16Nat needed ++ be16Nat avail⟩

theorem lengthVerdict_padLengthError {needed avail : Nat} (h : avail < needed) (s : State) :
    LengthVerdict avail s (padLengthError needed avail s) :=
  .inr ⟨needed, h, rfl, rfl, by rw [padLengthError_output, List.getLast?_concat]; rfl⟩

theorem SubfieldKeeps.lengthVerdict {s t u : State} (h : SubfieldKeeps s t) (avail : Nat) (hu : LengthVerdict avail t u) :
    LengthVerdict avail s u := by
  rw [LengthVerdict, h.raised, h.padLenErr] at hu
  exact hu

theorem walkSubfields_lengthVerdict (p : Params) (xpad : List Byte) (subs : List (Nat × BitVec 5)) (pos : Nat) (s : State) :
    LengthVerdict xpad.length s (walkSubfields p xpad subs pos s) := by
  induction subs generalizing pos s with
  | nil => exact .inl ⟨rfl, rfl⟩
  | cons sub subs ih =>
    obtain ⟨len, app⟩ := sub
    rw [walkSubfields]
    split
    next hover => exact lengthVerdict_padLengthError hover s
    next => exact (dispatchSubfield_keeps p app _ s).lengthVerdict _ (ih _ _)

theorem varXpadCont_lengthVerdict (p : Params) (xpad : List Byte) (s : State) :
    LengthVerdict xpad.length s (varXpadCont p xpad s) := by
  unfold varXpadCont
  dsimp only
  split_ifs with hzero hover
  · exact .inl ⟨rfl, rfl⟩
  · exact lengthVerdict_padLengthError hover s
  · exact (dispatchSubfield_keeps p _ _ s).lengthVerdict _ (.inl ⟨rfl, rfl⟩)

theorem processPad_lengthVerdict (p : Params) (frame : List Byte) (s : State) :
    LengthVerdict (frame.length - 2) s (processPad p frame s) := by
  have hlen : (Tables.xpad frame).length = frame.length - 2 := by simp [Tables.xpad]
  rw [← hlen]
  unfold processPad
  dsimp only
  split_ifs
  · exact .inl ⟨rfl, rfl⟩
  · unfold shortXpad
    split <;> exact .inl ⟨rfl, rfl⟩
  · exact walkSubfields_lengthVerdict p _ _ _ s
  · exact varXpadCont_lengthVerdict p _ s
  · exact .inl ⟨rfl, rfl⟩

/-- Settles O50: at most one error by `processPad_lengthVerdict`; the overrunning sub-field stops the walk at its end, and the
continued one stops before anything else. -/
theorem padLengthErrorAtMostOncePerFrame : Obligations.PadLengthErrorAtMostOncePerFrame := by
  refine ⟨fun p frame s => processPad_lengthVerdict p frame s, ?_, ?_⟩
  · intro p subs ci more marker rest fb1 fb2 s hfb1 hci hsubs hmore hend hrest list data
    rw [processPad_variable p _ fb1 fb2 s hfb1, if_pos hci]
    have hlaid := varXpadWithCi_laidOut p subs (ci :: more) marker rest s hsubs hmore
      (by rwa [List.length_cons, Nat.add_comm more.length, ← Nat.add_assoc])
    rw [padLengthErrorEffect_eq, hlaid, List.map_cons, walkSubfields, ciEntry_len, if_pos]
    change (list ++ data ++ rest).length < list.length + data.length + declaredLen ci
    rw [List.length_append, List.length_append]
    omega
  · intro p xpad fb1 fb2 s hfb1 hci hover
    rw [processPad_variable p _ fb1 fb2 s hfb1, hci, if_neg (by decide), padLengthErrorEffect_eq]
    exact varXpadCont_overrun p hover

end Sys2Proof.Machine

/-! SUPPORT. Label data groups (R243 to R246): what a whole group does, a group collected in pieces, a label segment as a group,
and the three statements. -/

namespace Sys2Proof.Machine

/-- A first segment has number 0 and the character set of byte 1 (R246). -/
theorem segment_first {g : List Byte} (s : State) (h : (byteAt g 0).getLsbD 6 = true) :
    segment g s = labelSegment
      { toggle := (byteAt g 0).getLsbD 7
        seg := 0
        last := (byteAt g 0).getLsbD 5
        charset := (byteAt g 1).extractLsb' 4 4
        payload := (g.take (g.length - 2)).drop 2 } s := by
  have hfirst : Tables.dgFirst (byteAt g 0) = true := h
  have hmalformed : ¬Tables.dgMalformed (byteAt g 0) (byteAt g 1) = true := by
    rw [Tables.dgMalformed, hfirst, Bool.not_true, Bool.false_and]
    decide
  exact (if_neg hmalformed).trans (by rw [Tables.dgSegment, Tables.dgCharset, if_pos hfirst, if_pos hfirst]; rfl)

/-- Any other segment has its number in byte 1, and none of number 0 is taken (R246). -/
theorem segment_later {g : List Byte} (s : State) (h : (byteAt g 0).getLsbD 6 = false) :
    segment g s = if (byteAt g 1).extractLsb' 4 3 = 0 then s else labelSegment
      { toggle := (byteAt g 0).getLsbD 7
        seg := (byteAt g 1).extractLsb' 4 3
        last := (byteAt g 0).getLsbD 5
        charset := 0
        payload := (g.take (g.length - 2)).drop 2 } s := by
  have hfirst : Tables.dgFirst (byteAt g 0) = false := h
  have hlater : ¬Tables.dgFirst (byteAt g 0) = true := Bool.eq_false_iff.1 hfirst
  have hseg : Tables.dgSegment (byteAt g 0) (byteAt g 1) = (byteAt g 1).extractLsb' 4 3 := if_neg hlater
  have hcharset : Tables.dgCharset (byteAt g 0) (byteAt g 1) = 0 := if_neg hlater
  have hmalformed : Tables.dgMalformed (byteAt g 0) (byteAt g 1) = true ↔ (byteAt g 1).extractLsb' 4 3 = 0 := by
    rw [Tables.dgMalformed, hfirst, hseg, Bool.not_false, Bool.true_and, beq_iff_eq]
  change (if Tables.dgMalformed (byteAt g 0) (byteAt g 1) = true then s else _) = _
  rw [if_congr hmalformed rfl rfl, hseg, hcharset]
  rfl

/-- Settles O56: the tests of `groupDone`, in their order, and the two kinds of segment. -/
theorem wholeGroupEffect : Obligations.WholeGroupEffect := by
  intro p g s
  simp only [groupDone, Bool.and_eq_true, Bool.not_eq_true']
  split
  · rfl
  · split
    · rfl
    · split
      next hfirst => exact segment_first s hfirst
      next hlater => exact segment_later s (Bool.eq_false_iff.2 hlater)

/-- A group that is closed stays closed while it is judged (R245). -/
theorem groupDone_dgActive (p : Params) {g : List Byte} (s : State) (hg : groupComplete g = true) :
    (groupDone p g s).dgActive = s.dgActive := by
  rcases groupDone_cases p s hg with heq | heq | ⟨info, heq, -⟩ <;> rw [heq]
  · rfl
  · rw [labelSegment_eq]
    split <;> rfl

/-- The first bytes of a whole group, without its last, are no whole group (R243, R244). -/
theorem groupComplete_part {a b : List Byte} (h : groupComplete (a ++ b) = true) (hb : b ≠ []) : groupComplete a = false := by
  refine Bool.eq_false_iff.2 fun ha => ?_
  obtain ⟨htwo, hlen⟩ := (groupComplete_iff a).1 ha
  have hwhole := groupComplete_length h
  rw [byteAt_append_left a b 0 (by omega), byteAt_append_left a b 1 (by omega), ← hlen, List.length_append] at hwhole
  exact hb (List.length_eq_zero_iff.1 (by omega))

/-- Bytes that do not complete the group are collected (R243). -/
theorem feed_collects (p : Params) {a c d : List Byte} (hg : groupComplete (a ++ c ++ d) = true) (hd : d ≠ []) {s : State}
    (hactive : s.dgActive = true) (hbuf : s.dgBuf = a) : feed p c s = { s with dgBuf := a ++ c } := by
  induction c generalizing a s with
  | nil => rw [List.append_nil, ← hbuf]; rfl
  | cons x c ih =>
    have hassoc : a ++ x :: c = a ++ [x] ++ c := by simp
    rw [hassoc] at hg ⊢
    have hpart : groupComplete (s.dgBuf ++ [x]) = false := by
      rw [hbuf]
      exact groupComplete_part (b := c ++ d) (by rwa [← List.append_assoc]) (by simp [hd])
    obtain ⟨hwhole, -⟩ | ⟨-, heq⟩ := feedByte_cases p x s
    · exact absurd (hwhole.symm.trans hpart) (by decide)
    · rw [feed_cons, if_pos hactive, heq, hbuf]
      exact ih hg hactive rfl

/-- The last byte of a group closes the buffer and has the group judged; what follows is dropped (R243). -/
theorem feed_completes (p : Params) {a b : List Byte} (tail : List Byte) (hg : groupComplete (a ++ b) = true) (hb : b ≠ [])
    {s : State} (hactive : s.dgActive = true) (hbuf : s.dgBuf = a) :
    feed p (b ++ tail) s = groupDone p (a ++ b) { s with dgActive := false, dgBuf := [] } := by
  obtain ⟨c, x, rfl⟩ := (List.eq_nil_or_concat b).resolve_left hb
  rw [List.concat_eq_append, ← List.append_assoc] at hg
  have hcollected := feed_collects p hg (List.cons_ne_nil x []) hactive hbuf
  have hlast : feedByte p x { s with dgBuf := a ++ c } =
      groupDone p (a ++ c ++ [x]) { s with dgActive := false, dgBuf := [] } := by
    obtain ⟨-, heq⟩ | ⟨hpart, -⟩ := feedByte_cases p x { s with dgBuf := a ++ c }
    · exact heq
    · exact absurd (hg.symm.trans hpart) (by decide)
  have hclosed : (groupDone p (a ++ c ++ [x]) { s with dgActive := false, dgBuf := [] }).dgActive = false :=
    groupDone_dgActive p _ hg
  rw [List.concat_eq_append, ← List.append_assoc, List.append_assoc c, feed_append, hcollected, List.singleton_append,
    feed_cons, if_pos hactive, hlast, feed_closed p tail _ hclosed]

/-- Settles O54: a group of the declared length is whole, so `feed_completes` and `feed_collects` give its pieces. -/
theorem wholeGroupIsJudgedOnce : Obligations.WholeGroupIsJudgedOnce := by
  intro p a b tail s g field1 hactive hbuf hb hlen
  have hfield (v : Byte) : (v.extractLsb' 0 4).toNat = bitField v 3 0 := (bitField_eq_toNat_extractLsb' v 3 0).symm
  have hexpected : g.length = expectedLen (byteAt g 0) (byteAt g 1) := by
    rw [expectedLen_eq, ← hfield, ← hfield]
    exact hlen
  have hwhole : groupComplete g = true :=
    (groupComplete_iff g).2 ⟨by have := (expectedLen_bounds (byteAt g 0) (byteAt g 1)).1; omega, hexpected⟩
  refine ⟨feed_completes p tail hwhole hb hactive hbuf, fun c d hcd hd => ⟨?_, ?_⟩⟩
  · exact feed_collects p (d := d) (by rwa [List.append_assoc, hcd]) hd hactive hbuf
  · rw [← feed_append, ← List.append_assoc, hcd]
    exact feed_completes p tail hwhole hb hactive hbuf

/-- Byte 0 of a label segment's group, field by field (R110). -/
theorem labelByte0_fields (toggle first last : Bool) (count : BitVec 4) :
    let p0 : Byte := BitVec.ofBool toggle ++ BitVec.ofBool first ++ BitVec.ofBool last ++ BitVec.ofBool false ++ count
    p0.getLsbD 7 = toggle ∧ p0.getLsbD 6 = first ∧ p0.getLsbD 5 = last ∧ p0.getLsbD 4 = false ∧
      bitField p0 3 0 = count.toNat := by
  revert toggle first last count
  decide +kernel

/-- Byte 1 of a label segment's group, field by field (R110, R111). -/
theorem labelByte1_fields (high low : BitVec 4) :
    (high ++ low : Byte).extractLsb' 4 4 = high ∧ (high ++ low : Byte).extractLsb' 4 3 = high.extractLsb' 0 3 := by
  revert high low
  decide +kernel

theorem labelGroup_eq (p0 p1 : Byte) (payload : List Byte) :
    labelGroup p0 p1 payload = p0 :: p1 :: payload ++ be16Bytes (crc16 (p0 :: p1 :: payload)) := rfl

/-- The bytes between a label segment's two first bytes and its CRC are its characters (R110). -/
theorem labelGroup_field (p0 p1 : Byte) (payload : List Byte) :
    ((labelGroup p0 p1 payload).take ((labelGroup p0 p1 payload).length - 2)).drop 2 = payload := by
  have hlen : (labelGroup p0 p1 payload).length - 2 = (p0 :: p1 :: payload).length := by simp [labelGroup_eq]
  rw [hlen, labelGroup_eq, List.take_left]
  rfl

/-- Settles O55: the group is whole and its CRC matches, so its segment, field by field, is what `WholeGroupEffect` hands on. -/
theorem labelGroupReachesTheAssembler : Obligations.LabelGroupReachesTheAssembler := by
  intro p toggle first last high low payload tail s hactive hbuf hone hmax hnumber p0
  obtain ⟨htoggle, hfirst, hlast, hcommand, hcount⟩ := labelByte0_fields toggle first last (BitVec.ofNat 4 (payload.length - 1))
  obtain ⟨hcharset, hseg⟩ := labelByte1_fields high low
  have hlen : (labelGroup p0 (high ++ low) payload).length = payload.length + 4 := by simp [labelGroup_eq]
  have hwhole : groupComplete ([] ++ labelGroup p0 (high ++ low) payload) = true := by
    rw [List.nil_append, groupComplete_iff, expectedLen_eq, hlen]
    change _ ∧ _ = if p0.getLsbD 4 = false then 2 + (bitField p0 3 0 + 1) + 2 else _
    rw [if_pos hcommand, hcount, BitVec.toNat_ofNat]
    omega
  have hcrc : crcOk (labelGroup p0 (high ++ low) payload) = true := crcOk_append _
  rw [feed_completes p tail hwhole (by simp [labelGroup_eq]) hactive hbuf, List.nil_append, wholeGroupEffect, hcrc,
    if_neg (by simp), labelGroup_field]
  change (if p0.getLsbD 4 = true then _ else if p0.getLsbD 6 = true then
    labelSegment ⟨p0.getLsbD 7, 0, p0.getLsbD 5, (high ++ low : Byte).extractLsb' 4 4, payload⟩ _
    else if (high ++ low : Byte).extractLsb' 4 3 = 0 then _
    else labelSegment ⟨p0.getLsbD 7, (high ++ low : Byte).extractLsb' 4 3, p0.getLsbD 5, 0, payload⟩ _) = _
  rw [htoggle, hfirst, hlast, hcommand, hcharset, hseg, if_neg (by decide)]
  cases first with
  | true => rfl
  | false => exact (if_neg (by decide)).trans (if_neg (hnumber rfl))

end Sys2Proof.Machine

/-! SUPPORT. Label assembly from segments in any order (R260 to R264, R270): what an assembly holds after some segments of a label,
when it is complete, and the two statements. -/

namespace Sys2Proof.Machine

/-- A segment of another toggle is stored as on an idle assembler (R261). -/
theorem LabelAsm.store_of_toggle_ne {g : SegmentInfo} {a : LabelAsm} (hactive : a.active = true) (htoggle : g.toggle ≠ a.toggle) :
    a.store g = LabelAsm.cleared.store g := by
  have hdiscard : (a.active && (g.toggle != a.toggle)) = true := by simp [hactive, htoggle]
  rw [LabelAsm.store, hdiscard]
  rfl

/-- Settles O58: the segment is stored alike, and nothing else is looked at. -/
theorem toggleChangeDiscardsTheAssembly : Obligations.ToggleChangeDiscardsTheAssembly := by
  intro g s hactive htoggle
  rw [labelSegment_eq, labelSegment_eq, LabelAsm.store_of_toggle_ne hactive htoggle]

/-- Segment `k` of a label with these parts (R262, R263). -/
def labelPart (payloads : List (List Byte)) (toggle : Bool) (charset : BitVec 4) (k : Nat) : SegmentInfo where
  toggle := toggle
  seg := BitVec.ofNat 3 k
  last := k + 1 == payloads.length
  charset := charset
  payload := payloads.getD k []

/-- The slot of segment `k` once the segments of `done` have arrived. -/
def partSlot (payloads : List (List Byte)) (done : List Nat) (k : Nat) : Slot :=
  if k ∈ done then ⟨true, payloads.getD k []⟩ else Slot.empty

/-- The assembly holds the segments of `done`, of a label with these parts, and no others. -/
structure Assembling (payloads : List (List Byte)) (toggle : Bool) (charset : BitVec 4) (done : List Nat) (a : LabelAsm) : Prop where
  toggle : a.active = true → a.toggle = toggle
  charset : 0 ∈ done → a.charset = charset
  lastValid : a.lastValid = true ↔ payloads.length - 1 ∈ done
  last : a.lastValid = true → a.last.toNat + 1 = payloads.length
  slot : ∀ k : Fin 8, a.slots[k] = partSlot payloads done k

section
variable {payloads : List (List Byte)} {toggle : Bool} {charset : BitVec 4} {done : List Nat} {a : LabelAsm} {k : Nat}

/-- An idle assembler holds no segment (R35). -/
theorem assembling_idle (ha : a = { LabelAsm.cleared with toggle := a.toggle }) : Assembling payloads toggle charset [] a := by
  rw [ha]
  exact {
    toggle := by intro hactive; cases hactive
    charset := by intro hmem; cases hmem
    lastValid := by simp [LabelAsm.cleared]
    last := by intro hvalid; cases hvalid
    slot := fun _ => Vector.getElem_replicate _ }

theorem Assembling.base_eq (h : Assembling payloads toggle charset done a) (g : SegmentInfo) (hg : g.toggle = toggle) :
    a.base g = a := by
  refine if_neg fun hdiscard => ?_
  obtain ⟨hactive, htoggle⟩ := Bool.and_eq_true_iff.1 hdiscard
  exact bne_iff_ne.1 htoggle (hg.trans (h.toggle hactive).symm)

/-- Storing a further segment (R262, R263). -/
theorem Assembling.store (h : Assembling payloads toggle charset done a) (hk : k < payloads.length) (hmax : payloads.length ≤ 8) :
    Assembling payloads toggle charset (k :: done) (a.store (labelPart payloads toggle charset k)) := by
  have hbase : a.base (labelPart payloads toggle charset k) = a := h.base_eq _ rfl
  have hseg : (labelPart payloads toggle charset k).seg.toNat = k := by
    rw [labelPart, BitVec.toNat_ofNat]
    omega
  have hlast : (labelPart payloads toggle charset k).last = true ↔ payloads.length - 1 = k := by
    rw [labelPart, beq_iff_eq]
    omega
  constructor
  case toggle => exact fun _ => rfl
  case charset =>
    intro hmem
    rw [LabelAsm.store_charset, hbase]
    split
    next => rfl
    next hne =>
      refine h.charset ((List.mem_cons.1 hmem).resolve_left fun hzero => hne ?_)
      exact BitVec.eq_of_toNat_eq (hseg.trans hzero.symm)
  case lastValid =>
    rw [LabelAsm.store_lastValid, hbase, Bool.or_eq_true, h.lastValid, hlast, List.mem_cons, or_comm]
  case last =>
    rw [LabelAsm.store_lastValid, LabelAsm.store_last, hbase]
    intro hvalid
    split
    next hthis =>
      rw [hseg]
      have := hlast.1 hthis
      omega
    next hother => exact h.last ((Bool.or_eq_true_iff.1 hvalid).resolve_right hother)
  case slot =>
    intro j
    rw [LabelAsm.store_slot, hbase, hseg, h.slot j]
    by_cases hjk : k = j.val
    · subst hjk
      simp [partSlot, labelPart]
    · simp [partSlot, Ne.symm hjk, hjk]

/-- Once its last segment has been seen, the slots of the label are those of its segments (R264). -/
theorem Assembling.expected_eq (h : Assembling payloads toggle charset done a) (hvalid : a.lastValid = true) :
    a.expected = (List.range payloads.length).map (partSlot payloads done) := by
  have hlen : a.expected.length = payloads.length := a.expected_length.trans (h.last hvalid)
  refine List.ext_getElem (by simp [hlen]) fun j hj _ => ?_
  have hlast := a.last.isLt
  have hmax := h.last hvalid
  simpa [LabelAsm.expected] using h.slot ⟨j, by omega⟩

/-- The assembly is complete exactly when every segment has arrived (R264). -/
theorem Assembling.complete_iff (h : Assembling payloads toggle charset done a) (hone : 1 ≤ payloads.length) :
    a.complete = true ↔ ∀ k < payloads.length, k ∈ done := by
  rw [LabelAsm.complete, Bool.and_eq_true]
  constructor
  · rintro ⟨hvalid, hall⟩ k hk
    rw [h.expected_eq hvalid, List.all_map, List.all_eq_true] at hall
    by_contra hmissing
    have hpresent := hall k (List.mem_range.2 hk)
    rw [Function.comp_apply, partSlot, if_neg hmissing] at hpresent
    cases hpresent
  · intro hall
    have hvalid : a.lastValid = true := h.lastValid.2 (hall _ (by omega))
    refine ⟨hvalid, ?_⟩
    rw [h.expected_eq hvalid, List.all_map, List.all_eq_true]
    intro k hk
    rw [Function.comp_apply, partSlot, if_pos (hall k (List.mem_range.1 hk))]

/-- The text of the complete assembly is the payloads in segment order (R264). -/
theorem Assembling.text_eq (h : Assembling payloads toggle charset done a) (hone : 1 ≤ payloads.length)
    (hall : ∀ k < payloads.length, k ∈ done) : a.text = payloads.flatten := by
  have hparts : (List.range payloads.length).map (fun k => (partSlot payloads done k).data) = payloads := by
    refine List.ext_getElem (by simp) fun j hj hj' => ?_
    simp [partSlot, hall j hj', hj']
  rw [LabelAsm.text, h.expected_eq (h.lastValid.2 (hall _ (by omega))), List.flatMap_map, List.flatMap_def, hparts]

/-- The segments still missing, in any order, publish the label at the last of them. -/
theorem Assembling.publishes (order : List Nat) {done : List Nat} {s : State} (h : Assembling payloads toggle charset done s.asm)
    (hone : 1 ≤ payloads.length) (hmax : payloads.length ≤ 8) (hne : order ≠ [])
    (hperm : (done ++ order).Perm (List.range payloads.length)) :
    order.foldl (fun u k => labelSegment (labelPart payloads toggle charset k) u) s =
      { s with
        asm := { LabelAsm.cleared with toggle := toggle }
        label := ⟨true, charset, payloads.flatten⟩
        output := s.output ++ [labelEvent charset payloads.flatten] } := by
  induction order generalizing done s with
  | nil => exact absurd rfl hne
  | cons k rest ih =>
    have hperm' : (k :: done ++ rest).Perm (List.range payloads.length) := List.perm_middle.symm.trans hperm
    have hk : k < payloads.length := List.mem_range.1 (hperm'.subset List.mem_cons_self)
    have hstored := h.store hk hmax
    rw [List.foldl_cons, labelSegment_eq]
    by_cases hrest : rest = []
    · subst hrest
      have hall : ∀ j < payloads.length, j ∈ k :: done := fun j hj => by
        simpa using hperm'.symm.subset (List.mem_range.2 hj)
      rw [if_pos ((hstored.complete_iff hone).2 hall), hstored.charset (hall 0 hone), hstored.text_eq hone hall]
      rfl
    · have hpartial : ¬(s.asm.store (labelPart payloads toggle charset k)).complete = true := by
        obtain ⟨r, hr⟩ := List.exists_mem_of_ne_nil rest hrest
        have hlt : r < payloads.length := List.mem_range.1 (hperm'.subset (List.mem_append_right _ hr))
        have hnodup := hperm'.nodup_iff.2 List.nodup_range
        exact fun hcomplete =>
          List.disjoint_of_nodup_append hnodup ((hstored.complete_iff hone).1 hcomplete r hlt) hr
      rw [if_neg hpartial]
      exact ih (s := { s with asm := _ }) hstored hrest hperm'

end

/-- Settles O57: from an idle assembler no segment has arrived, and all of them are still missing. -/
theorem labelAssemblesInAnyOrder : Obligations.LabelAssemblesInAnyOrder := by
  intro payloads order toggle charset s hinv hidle hone hmax hperm t
  have hne : order ≠ [] := by
    have := hperm.length_eq
    rintro rfl
    simp at this
    omega
  have ht := (assembling_idle (hinv.inactive hidle)).publishes (toggle := toggle) (charset := charset) order hone hmax hne hperm
  rw [show t = _ from ht]
  exact ⟨rfl, rfl, rfl⟩

end Sys2Proof.Machine
